-- ==== Sys2Proof/Word.lean ====
section
/-! DEFINITION. The machine's word types (00_scope.md R10, R11): bytes on the wire, 16-bit fields and the
32-bit words of the register window. Every helper that picks bits apart stands in Machine/Bits.lean. -/

namespace Sys2Proof

/-- A byte: one frame element on the wire (R10). -/
abbrev Byte := BitVec 8

/-- A 16-bit field of a frame or of a register (R11). -/
abbrev Half := BitVec 16

/-- One word of the host register window (20_memory.md R60). -/
abbrev Word := BitVec 32

end Sys2Proof
end

