-- ==== Sys2Proof/Machine/Bits.lean ====
section
/-! DEFINITION. Bit fields, byte order and the numbering of a word's bytes (00_scope.md R10, R11; 20_memory.md
R66, R67). -/

namespace Sys2Proof.Machine

/-- `be16(hi, lo)`, a 16-bit value with its high byte first (00_scope.md R11). -/
def be16 (hi lo : Byte) : Half := hi ++ lo

/-- Bits 15:8 of a 16-bit value. -/
def hiByte (h : Half) : Byte := h.extractLsb' 8 8

/-- Bits 7:0 of a 16-bit value. -/
def loByte (h : Half) : Byte := h.extractLsb' 0 8

/-- `{b3, b2, b1, b0}`: the byte with the lowest index in bits 7:0 (20_memory.md R66). -/
def packWord (b0 b1 b2 b3 : Byte) : Word := b3 ++ b2 ++ b1 ++ b0

/-- Byte lane `k` of a host word (R66). -/
def lane (w : Word) (k : Nat) : Byte := w.extractLsb' (8 * k) 8

/-- `sext_32` of a 16-bit field (R11). -/
def sext32 (h : Half) : Word := h.signExtend 32

/-- `zext_32` of a field (R11). -/
def zext32 {w : Nat} (v : BitVec w) : Word := v.setWidth 32

/-- The first `n` bytes of a number whose bits 7:0 are byte 0, bits 15:8 byte 1, and so on: the numbering of
spec/opcode_table.json for an instruction of several units. -/
def bytesOf : Nat → Nat → List Byte
  | 0, _ => []
  | n + 1, w => BitVec.ofNat 8 w :: bytesOf n (w / 256)

end Sys2Proof.Machine
end

