-- ==== Sys2Proof/Machine/Crc.lean ====
section
/-! DEFINITION. The CRC-16 generator (40_crc.md R140 to R145). -/

namespace Sys2Proof.Machine

/-- One shift step: bit 0 is shifted out, and 0xA001 is XORed in if it was 1 (R141). -/
def crcShift (c : Half) : Half :=
  if c.getLsbD 0 then (c >>> 1) ^^^ 0xA001#16 else c >>> 1

/-- `k` shift steps. -/
def crcShifts : Nat → Half → Half
  | 0, c => c
  | k + 1, c => crcShifts k (crcShift c)

/-- `crc_update`, the step for one byte (R141). -/
def crcUpdate (c : Half) (b : Byte) : Half := crcShifts 8 (c ^^^ b.setWidth 16)

/-- The running CRC of a byte sequence from a given start value. -/
def crcFrom (c : Half) (bs : List Byte) : Half := bs.foldl crcUpdate c

/-- `crc16` of a byte sequence: seed 0xFFFF, no final XOR (R140). -/
def crc16 (bs : List Byte) : Half := crcFrom 0xFFFF#16 bs

/-- Entry `i` of the table form (R142). -/
def crcTable (i : Byte) : Half := crcUpdate 0#16 i

/-- The two bytes appended to a frame, low byte first (R144). -/
def crcTail (bs : List Byte) : List Byte := [loByte (crc16 bs), hiByte (crc16 bs)]

/-- A frame with its CRC appended (R144). -/
def withCrc (bs : List Byte) : List Byte := bs ++ crcTail bs

/-- The value a frame's last two bytes carry, low byte first (20_memory.md R68). -/
def receivedCrc (f : List Byte) : Half :=
  be16 (f.getD (f.length - 1) 0#8) (f.getD (f.length - 2) 0#8)

/-- The CRC check of a received frame (R145). -/
def crcOk (f : List Byte) : Bool :=
  decide (2 ≤ f.length) && decide (crc16 (f.take (f.length - 2)) = receivedCrc f)

end Sys2Proof.Machine
end

