-- ==== Sys2Proof/Config.lean ====
section
/-! DEFINITION. What an implementation fixes and what the spec leaves free: the parameters of 00_scope.md R8, the
inputs one clock cycle brings (20_memory.md R61, 42_transceiver.md R200), and the opaque free values. Nothing in
this file computes: the delay formula and the input sampling stand under Machine/. -/

namespace Sys2Proof

/-- The three protocol variants (00_scope.md R3). -/
inductive Variant where
  | crc     -- V_CRC, the infrared temperature probe
  | fixed   -- V_FIXED, the CO2 probe
  | ascii   -- V_ASCII, the temperature controller
  deriving DecidableEq, Repr, Inhabited

/-- One delay in milliseconds for each protocol variant (00_scope.md R9). -/
structure PerVariant where
  crc   : Nat
  fixed : Nat
  ascii : Nat
  deriving DecidableEq, Repr, Inhabited

/-- A literal frame of eight bytes, in wire order (30_encoding.md R99). -/
structure Frame8 where
  b0 : Byte
  b1 : Byte
  b2 : Byte
  b3 : Byte
  b4 : Byte
  b5 : Byte
  b6 : Byte
  b7 : Byte
  deriving DecidableEq, Repr, Inhabited

/-- The parameters of 00_scope.md R8 that a model takes as arguments. P_CNT_W and N_SETTLE, N_GAP, N_POST are
derived from them (Machine/Timing.lean). -/
structure Params where
  /-- P_CLK_HZ -/
  clkHz : Nat
  /-- P_T_SETTLE_MS, one value for each variant (R9) -/
  settleMs : PerVariant
  /-- P_T_GAP_MS -/
  gapMs : PerVariant
  /-- P_T_POST_MS -/
  postMs : PerVariant
  /-- P_RX_TIMEOUT, in clock cycles -/
  rxTimeout : Nat
  /-- P_REG_TEMP -/
  regTemp : Half
  /-- P_CNT_TEMP -/
  cntTemp : Half
  /-- P_REG_EMIS -/
  regEmis : Half
  /-- P_CNT_EMIS -/
  cntEmis : Half
  /-- P_CO2_QUERY_FRAME -/
  co2QueryFrame : Frame8
  /-- P_CO2_STATUS_FRAME -/
  co2StatusFrame : Frame8
  /-- P_ASCII_CTRL, the control byte that opens the ASCII request -/
  asciiCtrl : Byte
  /-- P_ASCII_VAL_OFFSET -/
  asciiValOffset : Nat
  /-- P_RXBUF_BYTES -/
  rxbufBytes : Nat
  /-- P_RE_ACTIVE_LOW -/
  reActiveLow : Bool
  deriving DecidableEq, Repr, Inhabited

/-- The width of a host access at the bus adapter (20_memory.md R65). -/
inductive AccessWidth where
  | byte
  | half
  | word
  deriving DecidableEq, Repr, Inhabited

/-- What the host drives in one cycle (20_memory.md R61): the enable, the direction, the byte address at the bus
adapter (its bits 7:2 are `h_addr`), the access width there (R65) and the write data. -/
structure HostAccess where
  en    : Bool
  we    : Bool
  addr  : Byte
  width : AccessWidth
  wdata : Word
  deriving DecidableEq, Repr, Inhabited

/-- Everything the block samples at one clock edge: the reset input (70_reset_and_hazards.md R360), the host
access (20_memory.md R61) and the transport's signals (42_transceiver.md R200). -/
structure CycleIn where
  rst     : Bool
  host    : HostAccess
  txReady : Bool
  txIdle  : Bool
  txErr   : Bool
  rxValid : Bool
  rxData  : Byte
  rxErr   : Bool
  deriving DecidableEq, Repr, Inhabited

namespace Config

/-- What every unscheduled cycle brings: the host, the transport and the bus device are free agents, "under no
law" (00_scope.md R15, 42_transceiver.md R226). Applied to the number of the cycle. DEDUCED, safe: log entry 1. -/
opaque freeInputs : Nat → CycleIn

/-- The content of byte `i` of TXBUF after the reset edge of cycle `n`: arbitrary, stable until the block writes
the byte (70_reset_and_hazards.md R362). DESIGN CHOICE, safe: log entry 3. -/
opaque resetTxByte (n i : Nat) : Byte

/-- The content of byte `i` of RXBUF after the reset edge of cycle `n` (R362). DESIGN CHOICE, safe: log entry 3. -/
opaque resetRxByte (n i : Nat) : Byte

/-- What byte `i` of TXBUF shows at an index not below TXLEN, given what the cell holds (10_state.md R37).
DESIGN CHOICE, safe: log entry 4. -/
opaque beyondTx (i : Nat) (held : Byte) : Byte

/-- What byte `i` of RXBUF shows at an index not below RXLEN, given what the cell holds (10_state.md R38).
DESIGN CHOICE, safe: log entry 4. -/
opaque beyondRx (i : Nat) (held : Byte) : Byte

/-- `h_rdata` in a cycle without a host read, or with `rst = 1` (20_memory.md R62, 70_reset_and_hazards.md R360).
Applied to the number of the cycle. DESIGN CHOICE, safe: log entry 5. -/
opaque undrivenRead : Nat → Word

/-- P_CLK_HZ before its lower bound of 1000 is applied (R8, OPEN). -/
opaque clkHzFree : Nat

/-- P_RX_TIMEOUT before its lower bound of 1 is applied (R8, OPEN). -/
opaque rxTimeoutFree : Nat

/-- P_REG_TEMP (R8, OPEN). -/
opaque regTemp : Half

/-- P_CNT_TEMP (R8, OPEN). -/
opaque cntTemp : Half

/-- P_REG_EMIS (R8, OPEN). -/
opaque regEmis : Half

/-- P_CNT_EMIS (R8, OPEN). -/
opaque cntEmis : Half

/-- P_CO2_QUERY_FRAME (R8, OPEN). -/
opaque co2QueryFrame : Frame8

/-- P_CO2_STATUS_FRAME (R8, OPEN). -/
opaque co2StatusFrame : Frame8

/-- P_ASCII_VAL_OFFSET (R8, OPEN). -/
opaque asciiValOffset : Nat

/-- P_RE_ACTIVE_LOW (R8, OPEN). -/
opaque reActiveLow : Bool

/-- The parameters of the machine that `State.reset` describes: each OPEN one a free constant within the bound
R8 gives it, each other one at the value R8 gives it. DESIGN CHOICE, safe: log entry 2. -/
def params : Params where
  clkHz := max 1000 clkHzFree
  settleMs := { crc := 500, fixed := 500, ascii := 500 }
  gapMs := { crc := 1, fixed := 1, ascii := 1 }
  postMs := { crc := 5, fixed := 5, ascii := 5 }
  rxTimeout := max 1 rxTimeoutFree
  regTemp := regTemp
  cntTemp := cntTemp
  regEmis := regEmis
  cntEmis := cntEmis
  co2QueryFrame := co2QueryFrame
  co2StatusFrame := co2StatusFrame
  asciiCtrl := 0x02#8
  asciiValOffset := asciiValOffset
  rxbufBytes := 64
  reActiveLow := reActiveLow

end Config

end Sys2Proof
end

