-- ==== Sys2Proof/Syntax.lean ====
section
/-! DEFINITION. The instructions: one constructor for each row of spec/opcode_table.json. The sixteen command rows
are the words a host writes to CMD (30_encoding.md R90, R91). The wire rows are the frames the block sends and
judges (R96 to R102). A field is what the row's encoding leaves variable. -/

namespace Sys2Proof

/-- The transaction commands, opcodes 0x3 to 0x9 (30_encoding.md R91). -/
inductive TransOp where
  | readTemp
  | readEmis
  | writeId
  | writeEmis
  | co2Query
  | co2Status
  | asciiRead
  deriving DecidableEq, Repr, Inhabited

/-- One row of spec/opcode_table.json. -/
inductive Instr where
  -- command words: bits 31:4 are ignored and kept here so that no bit of the word is lost
  | crcInit   (ignored : BitVec 28)
  | crcByte   (ignored : BitVec 28)
  | readTemp  (ignored : BitVec 28)
  | readEmis  (ignored : BitVec 28)
  | writeId   (ignored : BitVec 28)
  | writeEmis (ignored : BitVec 28)
  | co2Query  (ignored : BitVec 28)
  | co2Status (ignored : BitVec 28)
  | asciiRead (ignored : BitVec 28)
  | reserved0 (ignored : BitVec 28)
  | reservedA (ignored : BitVec 28)
  | reservedB (ignored : BitVec 28)
  | reservedC (ignored : BitVec 28)
  | reservedD (ignored : BitVec 28)
  | reservedE (ignored : BitVec 28)
  | reservedF (ignored : BitVec 28)
  -- request frames
  | reqReadTemp  (addr : Byte) (reg count : Half) (crcLo crcHi : Byte)
  | reqReadEmis  (addr : Byte) (reg count : Half) (crcLo crcHi : Byte)
  | reqWriteId   (addr value crcLo crcHi : Byte)
  | reqWriteEmis (addr value crcLo crcHi : Byte)
  | reqCo2Query  (frame : Frame8)
  | reqCo2Status (frame : Frame8)
  | reqAsciiRead
  -- response frames: x0, x1, ... are the bytes the block does not check
  | rspReadTemp (x0 x1 x2 : Byte) (probe ambient : Half) (crcLo crcHi : Byte)
  | rspReadEmis (x0 x1 x2 x3 emissivity crcLo crcHi : Byte)
  | rspWrite    (x0 x1 x2 x3 x4 echo crcLo crcHi : Byte)
  | rspCo2      (x0 x1 x2 : Byte) (co2 : Half) (x5 x6 x7 : Byte)
  | rspAscii    (line : List Byte)
  deriving DecidableEq, Repr

/-- Where an instruction's bytes stand, which the block always knows without looking at them (30_encoding.md
R103): on the CMD port, in TXBUF as the request of a command, or in RXBUF as its response. -/
inductive DecodeContext where
  | command
  | request  (op : TransOp)
  | response (op : TransOp)
  deriving DecidableEq, Repr

/-- Why the decoder turns bytes away. -/
inductive DecodeReject where
  | wrongLength        -- not the row's number of bytes
  | wrongFunction      -- byte 1 is not the request's function code (R97)
  | wrongRegister      -- bytes 2 to 4 are not the write's register and value high byte (R97)
  | wrongAsciiRequest  -- not P_ASCII_CTRL and the fifteen characters of R101
  | noLineFeed         -- an ASCII response that does not end in 0x0A (R102)
  | afterLineFeed      -- an ASCII response with a 0x0A before its last byte (R186)
  deriving DecidableEq, Repr

end Sys2Proof
end

