-- ==== Sys2Proof/WellFormed.lean ====
section
/-! DEFINITION. What spec/opcode_table.json asks of an instruction beyond its field widths, and what 00_scope.md
R8 asks of the parameters. `Instr.encodable` is the part the encoding itself needs; `Instr.wellFormed` adds the
parameter fields and the checksum bytes. -/

namespace Sys2Proof

open Sys2Proof.Machine (hiByte loByte crc16)

/-- The bounds of 00_scope.md R8. -/
def Params.wf (p : Params) : Bool :=
  decide (1000 ≤ p.clkHz) && decide (1 ≤ p.rxTimeout) && decide (p.rxbufBytes % 4 = 0)
    && decide (16 ≤ p.rxbufBytes) && decide (p.rxbufBytes ≤ 128)

/-- A line ends with the line feed and holds no other one (30_encoding.md R102, 41_frame_codec.md R186). -/
def isLine (bs : List Byte) : Bool :=
  bs.getLast? == some 0x0A#8 && !(bs.dropLast.contains 0x0A#8)

/-- The instruction has an encoding: only the response line has a shape to keep. -/
def Instr.encodable : Instr → Bool
  | .rspAscii line => isLine line
  | _ => true

/-- The two checksum fields of a frame are the CRC of the bytes before them (30_encoding.md R96, R98). -/
def crcFields (body : List Byte) (crcLo crcHi : Byte) : Bool :=
  crcLo == loByte (crc16 body) && crcHi == hiByte (crc16 body)

/-- The row's fields hold what spec/opcode_table.json says they hold. -/
def Instr.wellFormed (p : Params) : Instr → Bool
  | .crcInit _ | .crcByte _ | .readTemp _ | .readEmis _ | .writeId _ | .writeEmis _ | .co2Query _ | .co2Status _
  | .asciiRead _ | .reserved0 _ | .reservedA _ | .reservedB _ | .reservedC _ | .reservedD _ | .reservedE _
  | .reservedF _ => true
  | .reqReadTemp a r n lo hi =>
    r == p.regTemp && n == p.cntTemp && crcFields [a, 0x03#8, hiByte r, loByte r, hiByte n, loByte n] lo hi
  | .reqReadEmis a r n lo hi =>
    r == p.regEmis && n == p.cntEmis && crcFields [a, 0x04#8, hiByte r, loByte r, hiByte n, loByte n] lo hi
  | .reqWriteId a v lo hi => crcFields [a, 0x06#8, 0x03#8, 0xE8#8, 0x00#8, v] lo hi
  | .reqWriteEmis a v lo hi =>
    decide (1 ≤ v.toNat) && decide (v.toNat ≤ 99) && crcFields [a, 0x06#8, 0x03#8, 0x20#8, 0x00#8, v] lo hi
  | .reqCo2Query f => f == p.co2QueryFrame
  | .reqCo2Status f => f == p.co2StatusFrame
  | .reqAsciiRead => true
  | .rspReadTemp x0 x1 x2 t u lo hi => crcFields [x0, x1, x2, hiByte t, loByte t, hiByte u, loByte u] lo hi
  | .rspReadEmis x0 x1 x2 x3 e lo hi => crcFields [x0, x1, x2, x3, e] lo hi
  | .rspWrite x0 x1 x2 x3 x4 v lo hi => crcFields [x0, x1, x2, x3, x4, v] lo hi
  | .rspCo2 _ _ _ _ _ _ _ => true
  | .rspAscii line => isLine line

end Sys2Proof
end

