-- ==== Sys2Proof/Decode.lean ====
section
/-! DEFINITION. The decoder, total on any bytes and rejecting by name, and the encoder (30_encoding.md R90 to
R103). The block never tells a frame's kind from its contents (R103): the context says where the bytes stand. -/

namespace Sys2Proof

open Sys2Proof.Machine (be16 hiByte loByte packWord lane bytesOf)

/-- The opcode of a transaction command (30_encoding.md R91). -/
def TransOp.code : TransOp → BitVec 4
  | .readTemp => 0x3#4
  | .readEmis => 0x4#4
  | .writeId => 0x5#4
  | .writeEmis => 0x6#4
  | .co2Query => 0x7#4
  | .co2Status => 0x8#4
  | .asciiRead => 0x9#4

/-- The transaction command an opcode names, if it names one (R91). -/
def TransOp.ofCode (op : BitVec 4) : Option TransOp :=
  [TransOp.readTemp, .readEmis, .writeId, .writeEmis, .co2Query, .co2Status, .asciiRead].find?
    (fun o => o.code == op)

/-- The fifteen characters `01DRS,01,0001` CR LF of the ASCII request (R101). -/
def asciiCommand : List Byte :=
  [0x30#8, 0x31#8, 0x44#8, 0x52#8, 0x53#8, 0x2C#8, 0x30#8, 0x31#8, 0x2C#8, 0x30#8, 0x30#8, 0x30#8, 0x31#8,
    0x0D#8, 0x0A#8]

/-- The sixteen bytes of the ASCII request, for the control byte P_ASCII_CTRL (R101). -/
def asciiRequest (ctrl : Byte) : List Byte := ctrl :: asciiCommand

/-- The bytes of a literal frame in wire order (R99). -/
def Frame8.toList (f : Frame8) : List Byte := [f.b0, f.b1, f.b2, f.b3, f.b4, f.b5, f.b6, f.b7]

/-- The command a word written to CMD issues: OP is bits 3:0, bits 31:4 are ignored (R90, R91, R92). -/
def decodeCommand (w : Word) : Instr :=
  let ignored := w.extractLsb' 4 28
  match (w.extractLsb' 0 4).toNat with
  | 0x0 => .reserved0 ignored
  | 0x1 => .crcInit ignored
  | 0x2 => .crcByte ignored
  | 0x3 => .readTemp ignored
  | 0x4 => .readEmis ignored
  | 0x5 => .writeId ignored
  | 0x6 => .writeEmis ignored
  | 0x7 => .co2Query ignored
  | 0x8 => .co2Status ignored
  | 0x9 => .asciiRead ignored
  | 0xA => .reservedA ignored
  | 0xB => .reservedB ignored
  | 0xC => .reservedC ignored
  | 0xD => .reservedD ignored
  | 0xE => .reservedE ignored
  | _ => .reservedF ignored

/-- A write request to one register, its value's high byte 0 (R97). -/
def decodeWriteRequest (regHi regLo : Byte) (mk : Byte → Byte → Byte → Byte → Instr) :
    List Byte → Except DecodeReject Instr
  | [a, fn, r1, r0, v1, v0, lo, hi] =>
    if fn = 0x06#8 then
      if r1 = regHi ∧ r0 = regLo ∧ v1 = 0x00#8 then .ok (mk a v0 lo hi) else .error .wrongRegister
    else .error .wrongFunction
  | _ => .error .wrongLength

/-- A read request with one function code (R97). -/
def decodeReadRequest (fnCode : Byte) (mk : Byte → Half → Half → Byte → Byte → Instr) :
    List Byte → Except DecodeReject Instr
  | [a, fn, r1, r0, n1, n0, lo, hi] =>
    if fn = fnCode then .ok (mk a (be16 r1 r0) (be16 n1 n0) lo hi) else .error .wrongFunction
  | _ => .error .wrongLength

/-- A literal request frame (R99). -/
def decodeLiteralRequest (mk : Frame8 → Instr) : List Byte → Except DecodeReject Instr
  | [b0, b1, b2, b3, b4, b5, b6, b7] => .ok (mk ⟨b0, b1, b2, b3, b4, b5, b6, b7⟩)
  | _ => .error .wrongLength

/-- The ASCII request (R101): it opens with the parameter P_ASCII_CTRL, which spec/opcode_table.json writes out as
its value 0x02. DESIGN CHOICE, safe: log entry 11. -/
def decodeAsciiRequest (p : Params) (bs : List Byte) : Except DecodeReject Instr :=
  if bs.length = 16 then
    (if bs = asciiRequest p.asciiCtrl then .ok .reqAsciiRead else .error .wrongAsciiRequest)
  else .error .wrongLength

/-- The request frame of a command (R96, R97, R99, R101). -/
def decodeRequest (p : Params) : TransOp → List Byte → Except DecodeReject Instr
  | .readTemp, bs => decodeReadRequest 0x03#8 .reqReadTemp bs
  | .readEmis, bs => decodeReadRequest 0x04#8 .reqReadEmis bs
  | .writeId, bs => decodeWriteRequest 0x03#8 0xE8#8 .reqWriteId bs
  | .writeEmis, bs => decodeWriteRequest 0x03#8 0x20#8 .reqWriteEmis bs
  | .co2Query, bs => decodeLiteralRequest .reqCo2Query bs
  | .co2Status, bs => decodeLiteralRequest .reqCo2Status bs
  | .asciiRead, bs => decodeAsciiRequest p bs

/-- A ReadTemperature response (R98). -/
def decodeTempResponse : List Byte → Except DecodeReject Instr
  | [x0, x1, x2, t1, t0, u1, u0, lo, hi] => .ok (.rspReadTemp x0 x1 x2 (be16 t1 t0) (be16 u1 u0) lo hi)
  | _ => .error .wrongLength

/-- A ReadEmissivity response (R98). -/
def decodeEmisResponse : List Byte → Except DecodeReject Instr
  | [x0, x1, x2, x3, e, lo, hi] => .ok (.rspReadEmis x0 x1 x2 x3 e lo hi)
  | _ => .error .wrongLength

/-- A WriteId or WriteEmissivity response (R98). -/
def decodeWriteResponse : List Byte → Except DecodeReject Instr
  | [x0, x1, x2, x3, x4, v, lo, hi] => .ok (.rspWrite x0 x1 x2 x3 x4 v lo hi)
  | _ => .error .wrongLength

/-- A response of the fixed binary variant (R100). -/
def decodeCo2Response : List Byte → Except DecodeReject Instr
  | [x0, x1, x2, g1, g0, x5, x6, x7] => .ok (.rspCo2 x0 x1 x2 (be16 g1 g0) x5 x6 x7)
  | _ => .error .wrongLength

/-- A response line of the ASCII variant (R102). -/
def decodeAsciiResponse (bs : List Byte) : Except DecodeReject Instr :=
  if bs.getLast? = some 0x0A#8 then
    (if bs.dropLast.contains 0x0A#8 then .error .afterLineFeed else .ok (.rspAscii bs))
  else .error .noLineFeed

/-- The response frame of a command (R98, R100, R102). Its CRC bytes are fields here: checking them is the
machine's work (41_frame_codec.md R167). -/
def decodeResponse : TransOp → List Byte → Except DecodeReject Instr
  | .readTemp, bs => decodeTempResponse bs
  | .readEmis, bs => decodeEmisResponse bs
  | .writeId, bs => decodeWriteResponse bs
  | .writeEmis, bs => decodeWriteResponse bs
  | .co2Query, bs => decodeCo2Response bs
  | .co2Status, bs => decodeCo2Response bs
  | .asciiRead, bs => decodeAsciiResponse bs

/-- The decoder: total on any bytes. A command word's four bytes come with byte lane 0 first (20_memory.md R66). -/
def decode (p : Params) : DecodeContext → List Byte → Except DecodeReject Instr
  | .command, [b0, b1, b2, b3] => .ok (decodeCommand (packWord b0 b1 b2 b3))
  | .command, _ => .error .wrongLength
  | .request op, bs => decodeRequest p op bs
  | .response op, bs => decodeResponse op bs

/-! ## The encoder -/

/-- A command word (30_encoding.md R90). -/
def commandWord (ignored : BitVec 28) (op : BitVec 4) : Word := ignored ++ op

/-- The four byte lanes of a word, lane 0 first (20_memory.md R66). -/
def wordBytes (w : Word) : List Byte := [lane w 0, lane w 1, lane w 2, lane w 3]

/-- A 16-bit field, high byte first (20_memory.md R67). -/
def bigEndian (h : Half) : List Byte := [hiByte h, loByte h]

/-- The bytes of an instruction, in the order they are written or travel. -/
def encode (p : Params) : Instr → List Byte
  | .crcInit g => wordBytes (commandWord g 0x1#4)
  | .crcByte g => wordBytes (commandWord g 0x2#4)
  | .readTemp g => wordBytes (commandWord g 0x3#4)
  | .readEmis g => wordBytes (commandWord g 0x4#4)
  | .writeId g => wordBytes (commandWord g 0x5#4)
  | .writeEmis g => wordBytes (commandWord g 0x6#4)
  | .co2Query g => wordBytes (commandWord g 0x7#4)
  | .co2Status g => wordBytes (commandWord g 0x8#4)
  | .asciiRead g => wordBytes (commandWord g 0x9#4)
  | .reserved0 g => wordBytes (commandWord g 0x0#4)
  | .reservedA g => wordBytes (commandWord g 0xA#4)
  | .reservedB g => wordBytes (commandWord g 0xB#4)
  | .reservedC g => wordBytes (commandWord g 0xC#4)
  | .reservedD g => wordBytes (commandWord g 0xD#4)
  | .reservedE g => wordBytes (commandWord g 0xE#4)
  | .reservedF g => wordBytes (commandWord g 0xF#4)
  | .reqReadTemp a r n lo hi => [a, 0x03#8] ++ bigEndian r ++ bigEndian n ++ [lo, hi]
  | .reqReadEmis a r n lo hi => [a, 0x04#8] ++ bigEndian r ++ bigEndian n ++ [lo, hi]
  | .reqWriteId a v lo hi => [a, 0x06#8, 0x03#8, 0xE8#8, 0x00#8, v, lo, hi]
  | .reqWriteEmis a v lo hi => [a, 0x06#8, 0x03#8, 0x20#8, 0x00#8, v, lo, hi]
  | .reqCo2Query f => f.toList
  | .reqCo2Status f => f.toList
  | .reqAsciiRead => asciiRequest p.asciiCtrl
  | .rspReadTemp x0 x1 x2 t u lo hi => [x0, x1, x2] ++ bigEndian t ++ bigEndian u ++ [lo, hi]
  | .rspReadEmis x0 x1 x2 x3 e lo hi => [x0, x1, x2, x3, e, lo, hi]
  | .rspWrite x0 x1 x2 x3 x4 v lo hi => [x0, x1, x2, x3, x4, v, lo, hi]
  | .rspCo2 x0 x1 x2 g x5 x6 x7 => [x0, x1, x2] ++ bigEndian g ++ [x5, x6, x7]
  | .rspAscii line => line

/-- Every place where an instruction's bytes may stand (30_encoding.md R103): a write response answers both write
commands, and a CO2 response both commands of its variant. -/
def Instr.contexts : Instr → List DecodeContext
  | .crcInit _ | .crcByte _ | .readTemp _ | .readEmis _ | .writeId _ | .writeEmis _ | .co2Query _ | .co2Status _
  | .asciiRead _ | .reserved0 _ | .reservedA _ | .reservedB _ | .reservedC _ | .reservedD _ | .reservedE _
  | .reservedF _ => [.command]
  | .reqReadTemp .. => [.request .readTemp]
  | .reqReadEmis .. => [.request .readEmis]
  | .reqWriteId .. => [.request .writeId]
  | .reqWriteEmis .. => [.request .writeEmis]
  | .reqCo2Query _ => [.request .co2Query]
  | .reqCo2Status _ => [.request .co2Status]
  | .reqAsciiRead => [.request .asciiRead]
  | .rspReadTemp .. => [.response .readTemp]
  | .rspReadEmis .. => [.response .readEmis]
  | .rspWrite .. => [.response .writeId, .response .writeEmis]
  | .rspCo2 .. => [.response .co2Query, .response .co2Status]
  | .rspAscii _ => [.response .asciiRead]

/-! ## The opcode table's numbering of bits -/

/-- The contexts of the table's rows, in the table's order. -/
def tableContexts : List DecodeContext :=
  [.command, .request .readTemp, .request .readEmis, .request .writeId, .request .writeEmis, .request .co2Query,
    .request .co2Status, .request .asciiRead, .response .readTemp, .response .readEmis, .response .writeId,
    .response .co2Query, .response .asciiRead]

/-- The first context, in the table's order, in which a row takes these bytes. The table's 64-bit rows share
words (30_encoding.md R103 tells them apart by where they stand), so a bare word needs this order.
DESIGN CHOICE, safe: log entry 9. -/
def tableContext (p : Params) (bs : List Byte) : Option DecodeContext :=
  tableContexts.find? (fun c => match decode p c bs with | .ok _ => true | .error _ => false)

/-- The instruction the decoder reads from an instruction whose bits are `w`, numbered as
spec/opcode_table.json numbers them. -/
def decodeTableWord (nbits w : Nat) : Option Instr :=
  let bs := bytesOf (nbits / 8) w
  match tableContext Config.params bs with
  | some c => (decode Config.params c bs).toOption
  | none => none

end Sys2Proof
end

