-- ==== Sys2Proof/Machine/State.lean ====
section
/-! DEFINITION. The state of the block: the host registers and internal elements of 10_state.md R21 to R41, the
model's own fields (parameters, scheduled inputs, cycle number, the outputs of the cycle just run), the reasons a
step can stop, and reset (70_reset_and_hazards.md R360). -/

namespace Sys2Proof.Machine

/-- The sequencer's phases (10_state.md R41). Codes 10 to 15 are never entered. -/
inductive Phase where
  | idle
  | settle
  | txFirst
  | flush1
  | gap
  | txRest
  | flush2
  | postwrite
  | receive
  | eval
  deriving DecidableEq, Repr, Inhabited

/-- The status codes and failure causes of 60_exceptions.md R321. Code 0 also stands for "no cause" (10_state.md
R40). Codes 11 to 15 are reserved and never written. -/
inductive Code where
  | ok
  | transportError
  | checksumMismatch
  | shortRead
  | valueRejected
  | outOfRange
  | exhausted
  | unknownDevice
  | formatError
  | illegalCommand
  | badConfig
  deriving DecidableEq, Repr, Inhabited

/-- What the block drives in one cycle (10_state.md R42). `rePin` is the receive-enable pin `re_n` or `re`. -/
structure Outputs where
  de      : Bool
  rePin   : Bool
  baudSel : Bool
  txValid : Bool
  txData  : Byte
  irq     : Bool
  hRdata  : Word
  deriving DecidableEq, Repr, Inhabited

/-- The whole machine. -/
structure State where
  /-- reg.ADDR (R23) -/
  regAddr : BitVec 8
  /-- reg.VALUE (R24) -/
  regValue : BitVec 16
  /-- reg.MAXATT (R25) -/
  regMaxatt : BitVec 8
  /-- s.phase (R40, R41) -/
  phase : Phase
  /-- s.op (R40) -/
  op : BitVec 4
  /-- s.addr (R40) -/
  addr : BitVec 8
  /-- s.value (R40) -/
  value : BitVec 16
  /-- s.maxatt (R40) -/
  maxatt : BitVec 8
  /-- s.variant (R40) -/
  variant : Variant
  /-- s.attempt, reg.STATUS.ATTEMPTS (R40, 43_retry.md R260) -/
  attempt : BitVec 8
  /-- s.cnt (R40, 42_transceiver.md R224) -/
  cnt : Nat
  /-- s.txidx (R40) -/
  txidx : BitVec 4
  /-- s.txlen, reg.TXLEN (R36, R40) -/
  txlen : BitVec 5
  /-- s.rxlen, reg.RXLEN (R35, R40) -/
  rxlen : BitVec 8
  /-- s.explen, 0 in line mode (R40) -/
  explen : BitVec 8
  /-- s.cause, `ok` if none (R40, 42_transceiver.md R221) -/
  cause : Code
  /-- s.txbuf, 16 bytes (R37, R40) -/
  txbuf : List Byte
  /-- s.rxbuf, P_RXBUF_BYTES bytes (R38, R40) -/
  rxbuf : List Byte
  /-- s.crc, reg.CRC (R29, R40) -/
  crc : BitVec 16
  /-- s.de (R40, R42) -/
  de : Bool
  /-- s.re (R40, R42) -/
  re : Bool
  /-- s.baud_sel (R40, 42_transceiver.md R204) -/
  baudSel : Bool
  /-- s.done, reg.STATUS.DONE (R26, R40) -/
  done : Bool
  /-- s.overrun, reg.STATUS.OVERRUN (R26, R40) -/
  overrun : Bool
  /-- s.code, reg.STATUS.CODE (R26, R40) -/
  code : Code
  /-- s.last_cause, reg.STATUS.LAST_CAUSE (R26, R40) -/
  lastCause : Code
  /-- s.data0, reg.DATA0 (R27, R40) -/
  data0 : BitVec 32
  /-- s.data1, reg.DATA1 (R28, R40) -/
  data1 : BitVec 32
  /-- s.irq_status, reg.IRQ_STATUS (R32, R40) -/
  irqStatus : BitVec 2
  /-- s.irq_enable, reg.IRQ_ENABLE (R33, R40) -/
  irqEnable : BitVec 2
  /-- s.faillog_cause, reg.FAILLOG.CAUSE (R34, R40) -/
  faillogCause : Code
  /-- s.faillog_attempt, reg.FAILLOG.ATTEMPT (R34, R40) -/
  faillogAttempt : BitVec 8
  /-- the model's own: the parameters of 00_scope.md R8, which no step changes -/
  par : Params
  /-- the model's own: the inputs scheduled for the coming cycles, the next one first -/
  inputs : List CycleIn
  /-- the model's own: the number of cycles run, which the free values are applied to -/
  cycle : Nat
  /-- the model's own: what the block drove in the cycle just run -/
  out : Outputs
  deriving DecidableEq, Repr

/-- No step of this machine faults: "No host access can fault" (20_memory.md R69) and no input leads to a state
that no rule covers (60_exceptions.md R338). Nobody raises one. Safe. -/
inductive Fault where
  deriving DecidableEq, Repr

/-- Why a step has no meaning. -/
inductive Refusal where
  /-- Raised by `exec` for an instruction without a meaning yet. Safe. -/
  | notModelled (mnemonic : String)
  /-- Raised by `step` for a host access that is not a whole word: "A model refuses any access that is not a
  whole word" (20_memory.md R65). Safe. Log entry 7. -/
  | narrowAccess (width : AccessWidth)
  deriving DecidableEq, Repr

/-- The state right after the reset edge of cycle `n` (70_reset_and_hazards.md R360, 10_state.md R40), given the
model's own fields. The buffers hold arbitrary bytes (R362). -/
def State.afterReset (par : Params) (n : Nat) (inputs : List CycleIn) (cycle : Nat) (out : Outputs) : State where
  regAddr := 0
  regValue := 0
  regMaxatt := 1
  phase := .idle
  op := 0
  addr := 0
  value := 0
  maxatt := 1
  variant := .crc
  attempt := 0
  cnt := 0
  txidx := 0
  txlen := 0
  rxlen := 0
  explen := 0
  cause := .ok
  txbuf := (List.range 16).map (Config.resetTxByte n)
  rxbuf := (List.range par.rxbufBytes).map (Config.resetRxByte n)
  crc := 0xFFFF
  de := false
  re := true
  baudSel := false
  done := false
  overrun := false
  code := .ok
  lastCause := .ok
  data0 := 0
  data1 := 0
  irqStatus := 0
  irqEnable := 0
  faillogCause := .ok
  faillogAttempt := 0
  par := par
  inputs := inputs
  cycle := cycle
  out := out

/-- The machine right after reset (R360), with the parameters of `Config.params` and nothing scheduled. The values of
the model's own fields: DESIGN CHOICE, unsafe: log entry 10. -/
def State.reset : State :=
  State.afterReset Config.params 0 [] 0
    { de := false, rePin := !Config.reActiveLow, baudSel := false, txValid := false,
      txData := Config.beyondTx 0 (Config.resetTxByte 0 0), irq := false, hRdata := Config.undrivenRead 0 }

end Sys2Proof.Machine
end

