-- ==== Sys2Proof/Machine/Operands.lean ====
section
/-! DEFINITION. What each transaction command takes: its variant and response length, its operand checks, and the
request frame built from its operands (30_encoding.md R91, R93; 41_frame_codec.md R161 to R166, R176, R180,
R185). -/

namespace Sys2Proof.Machine

/-- The protocol variant of a command (30_encoding.md R91). -/
def variantOf : TransOp → Variant
  | .readTemp | .readEmis | .writeId | .writeEmis => .crc
  | .co2Query | .co2Status => .fixed
  | .asciiRead => .ascii

/-- `responseLength`; 0 is line mode (41_frame_codec.md R166). -/
def responseLength : TransOp → BitVec 8
  | .readTemp => 9#8
  | .readEmis => 7#8
  | .writeId => 8#8
  | .writeEmis => 8#8
  | .co2Query => 8#8
  | .co2Status => 8#8
  | .asciiRead => 0#8

/-- The operand range check, made before any bus activity (41_frame_codec.md R176). -/
def rangeFails (op : TransOp) (value : Half) : Bool :=
  match op with
  | .writeId => decide (0x00FF < value.toNat)
  | .writeEmis => decide (value.toNat < 1) || decide (99 < value.toNat)
  | .readTemp | .readEmis | .co2Query | .co2Status | .asciiRead => false

/-- `enc_crc` (41_frame_codec.md R161). -/
def encCrc (a fn : Byte) (reg val : Half) : List Byte :=
  withCrc [a, fn, hiByte reg, loByte reg, hiByte val, loByte val]

/-- `{0x00, s.value[7:0]}`, the value field of a write (30_encoding.md R97). -/
def writeField (value : Half) : Half := be16 0x00#8 (loByte value)

/-- `encode`: the request frame of a command (41_frame_codec.md R160, R162 to R165, R180, R185). -/
def requestFrame (p : Params) (op : TransOp) (addr : Byte) (value : Half) : List Byte :=
  match op with
  | .readTemp => encCrc addr 0x03#8 p.regTemp p.cntTemp
  | .readEmis => encCrc addr 0x04#8 p.regEmis p.cntEmis
  | .writeId => encCrc addr 0x06#8 0x03E8#16 (writeField value)
  | .writeEmis => encCrc addr 0x06#8 0x0320#16 (writeField value)
  | .co2Query => p.co2QueryFrame.toList
  | .co2Status => p.co2StatusFrame.toList
  | .asciiRead => asciiRequest p.asciiCtrl

end Sys2Proof.Machine
end

