-- ==== Sys2Proof/Machine/Codec.lean ====
section
/-! DEFINITION. Judging a response: validation and decoding (41_frame_codec.md R167 to R173, R182 to R189). -/

namespace Sys2Proof.Machine

/-- `ishex` (41_frame_codec.md R188). -/
def isHex (ch : Byte) : Bool :=
  (decide (0x30 ≤ ch.toNat) && decide (ch.toNat ≤ 0x39)) || (decide (0x41 ≤ ch.toNat) && decide (ch.toNat ≤ 0x46))
    || (decide (0x61 ≤ ch.toNat) && decide (ch.toNat ≤ 0x66))

/-- `hexval`, a 4-bit value (41_frame_codec.md R188). Used only where `isHex` holds
(what it gives elsewhere: log entry 8). -/
def hexVal (ch : Byte) : BitVec 4 :=
  if ch.toNat ≤ 0x39 then (ch - 0x30#8).setWidth 4
  else if ch.toNat ≤ 0x46 then (ch - 0x37#8).setWidth 4
  else (ch - 0x57#8).setWidth 4

/-- Byte `i` of a response. -/
def rxAt (rx : List Byte) (i : Nat) : Byte := rx.getD i 0#8

/-- `validate` (41_frame_codec.md R167, R182, R187): `ok`, `checksumMismatch` or `formatError`. -/
def validate (p : Params) (op : TransOp) (rx : List Byte) : Code :=
  match op with
  | .readTemp | .readEmis | .writeId | .writeEmis => if crcOk rx then .ok else .checksumMismatch
  | .co2Query | .co2Status => .ok
  | .asciiRead =>
    let o := p.asciiValOffset
    if decide (o + 4 ≤ rx.length) && isHex (rxAt rx o) && isHex (rxAt rx (o + 1)) && isHex (rxAt rx (o + 2))
        && isHex (rxAt rx (o + 3)) then .ok
    else .formatError

/-- The four hexadecimal characters of an ASCII response, the first one most significant (41_frame_codec.md
R189). -/
def hexField (rx : List Byte) (o : Nat) : Half :=
  hexVal (rxAt rx o) ++ hexVal (rxAt rx (o + 1)) ++ hexVal (rxAt rx (o + 2)) ++ hexVal (rxAt rx (o + 3))

/-- What a judged response leads to: a final code with DATA0 and DATA1, or a failed attempt (43_retry.md R259). -/
inductive Verdict where
  | accept (code : Code) (data0 data1 : Word)
  | reject (cause : Code)
  deriving DecidableEq, Repr

/-- `decode`, after `validate` said `ok` (41_frame_codec.md R169, R170, R171, R183, R189). `sent` is byte 5 of the
request. -/
def decodeFields (p : Params) (op : TransOp) (rx : List Byte) (sent : Byte) : Verdict :=
  match op with
  | .readTemp => .accept .ok (sext32 (be16 (rxAt rx 3) (rxAt rx 4))) (sext32 (be16 (rxAt rx 5) (rxAt rx 6)))
  | .readEmis => .accept .ok (zext32 (rxAt rx 4)) 0
  | .writeId | .writeEmis =>
    .accept (if rxAt rx 5 = sent then .ok else .valueRejected) (zext32 (rxAt rx 5)) 0
  | .co2Query => .accept .ok (zext32 (be16 (rxAt rx 3) (rxAt rx 4))) 0
  | .co2Status => .accept .ok 0 0
  | .asciiRead => .accept .ok (zext32 (hexField rx p.asciiValOffset)) 0

/-- Validation comes before decoding (41_frame_codec.md R173). -/
def judge (p : Params) (op : TransOp) (rx : List Byte) (sent : Byte) : Verdict :=
  match validate p op rx with
  | .ok => decodeFields p op rx sent
  | c => .reject c

end Sys2Proof.Machine
end

