-- ==== Sys2Proof/Machine/Timing.lean ====
section
/-! DEFINITION. The delays in clock cycles (00_scope.md R8, R9; 42_transceiver.md R224). -/

namespace Sys2Proof

/-- The delay of one variant. -/
def PerVariant.get (d : PerVariant) : Variant → Nat
  | .crc => d.crc
  | .fixed => d.fixed
  | .ascii => d.ascii

/-- `N_x = max(1, ceil(ms * P_CLK_HZ / 1000))` (R8). -/
def Params.delayCycles (p : Params) (ms : Nat) : Nat := max 1 ((ms * p.clkHz + 999) / 1000)

/-- N_SETTLE (R8, R9). -/
def Params.nSettle (p : Params) (v : Variant) : Nat := p.delayCycles (p.settleMs.get v)

/-- N_GAP (R8, R9). -/
def Params.nGap (p : Params) (v : Variant) : Nat := p.delayCycles (p.gapMs.get v)

/-- N_POST (R8, R9). -/
def Params.nPost (p : Params) (v : Variant) : Nat := p.delayCycles (p.postMs.get v)

/-- The longest count the counter ever holds. -/
def Params.maxCount (p : Params) : Nat :=
  [Variant.crc, .fixed, .ascii].foldl
    (fun m v => max m (max (p.nSettle v) (max (p.nGap v) (p.nPost v)))) p.rxTimeout

/-- P_CNT_W, a width large enough for `maxCount` (R8). The counter itself is a number: it is loaded with a value
that fits and only counts down (R224). -/
def Params.cntW (p : Params) : Nat := Nat.log2 p.maxCount + 1

end Sys2Proof
end

