-- ==== Sys2Proof/Machine/Flags.lean ====
section
/-! DEFINITION. The flags and the codes of fields: BUSY, the STATUS, LINES and FAILLOG words, the interrupt bits
and the output signals (10_state.md R26, R31, R34, R42, R43; 60_exceptions.md R321, R326 to R328). -/

namespace Sys2Proof.Machine

/-- The phase codes of 10_state.md R41. -/
def Phase.bits : Phase → BitVec 4
  | .idle => 0#4
  | .settle => 1#4
  | .txFirst => 2#4
  | .flush1 => 3#4
  | .gap => 4#4
  | .txRest => 5#4
  | .flush2 => 6#4
  | .postwrite => 7#4
  | .receive => 8#4
  | .eval => 9#4

/-- The status codes of 60_exceptions.md R321. -/
def Code.bits : Code → BitVec 4
  | .ok => 0#4
  | .transportError => 1#4
  | .checksumMismatch => 2#4
  | .shortRead => 3#4
  | .valueRejected => 4#4
  | .outOfRange => 5#4
  | .exhausted => 6#4
  | .unknownDevice => 7#4
  | .formatError => 8#4
  | .illegalCommand => 9#4
  | .badConfig => 10#4

/-- The variant ids of 00_scope.md R3. -/
def variantBits : Variant → BitVec 2
  | .crc => 0#2
  | .fixed => 1#2
  | .ascii => 2#2

/-- A flag as one bit. -/
def flag (b : Bool) : BitVec 1 := BitVec.ofBool b

/-- BUSY: not stored, 1 while the sequencer is not idle (10_state.md R26). -/
def State.busy (s : State) : Bool := decide (s.phase ≠ .idle)

/-- The STATUS word (10_state.md R26). -/
def State.statusWord (s : State) : Word :=
  0#8 ++ s.attempt ++ 0#4 ++ s.lastCause.bits ++ s.code.bits ++ 0#1 ++ flag s.overrun ++ flag s.done ++ flag s.busy

/-- The LINES word (10_state.md R31). -/
def State.linesWord (s : State) : Word :=
  0#22 ++ variantBits s.variant ++ s.phase.bits ++ 0#1 ++ flag s.baudSel ++ flag s.re ++ flag s.de

/-- The FAILLOG word (10_state.md R34). -/
def State.faillogWord (s : State) : Word := 0#16 ++ s.faillogAttempt ++ 0#4 ++ s.faillogCause.bits

/-- DONE_IRQ, bit 0 of IRQ_STATUS (10_state.md R32). -/
def doneIrq : BitVec 2 := 0b01#2

/-- ATTFAIL_IRQ, bit 1 of IRQ_STATUS (10_state.md R32). -/
def attfailIrq : BitVec 2 := 0b10#2

/-- The block sets interrupt cause bits (60_exceptions.md R326). -/
def State.setIrq (s : State) (bits : BitVec 2) : State := { s with irqStatus := s.irqStatus ||| bits }

/-- The host clears the cause bits it writes 1 to (60_exceptions.md R326, R328). -/
def State.ackIrq (s : State) (bits : BitVec 2) : State := { s with irqStatus := s.irqStatus &&& ~~~bits }

/-- The interrupt output, level-sensitive (60_exceptions.md R326, R327). -/
def State.irq (s : State) : Bool := decide (s.irqStatus &&& s.irqEnable ≠ 0#2)

/-- `tx_valid` (10_state.md R42, 42_transceiver.md R225). -/
def State.txValid (s : State) : Bool := decide (s.phase = .txFirst ∨ s.phase = .txRest)

/-- The receive-enable pin (42_transceiver.md R202). -/
def State.rePin (s : State) : Bool := if s.par.reActiveLow then !s.re else s.re

/-- Byte `i` of TXBUF as it can be seen: free at an index not below TXLEN (10_state.md R37). -/
def State.txByte (s : State) (i : Nat) : Byte :=
  if i < s.txlen.toNat then s.txbuf.getD i 0#8 else Config.beyondTx i (s.txbuf.getD i 0#8)

/-- Byte `i` of RXBUF as it can be seen: free at an index not below RXLEN (10_state.md R38). -/
def State.rxByte (s : State) (i : Nat) : Byte :=
  if i < s.rxlen.toNat then s.rxbuf.getD i 0#8 else Config.beyondRx i (s.rxbuf.getD i 0#8)

end Sys2Proof.Machine
end

