-- ==== Sys2Proof/Machine/Ops.lean ====
section
/-! DEFINITION. The named operations over the state that the meanings share: the inputs of the cycle, the line
modes, finishing a command (this hardware's counterpart of taking an exception, 60_exceptions.md R325), reporting a
failed attempt, command acceptance (44_commands.md R280, R290), loading the frame buffers, and reset
(70_reset_and_hazards.md R360). -/

namespace Sys2Proof.Machine

/-- The inputs of this cycle: the next scheduled ones, or free ones when none is scheduled (00_scope.md R15).
DEDUCED, safe: log entry 1. -/
def State.now (s : State) : CycleIn := s.inputs.headD (Config.freeInputs s.cycle)

/-! ## Lines -/

/-- Transmit mode (42_transceiver.md R203). -/
def State.transmitMode (s : State) : State := { s with de := true, re := false }

/-- Receive mode (42_transceiver.md R203). -/
def State.receiveMode (s : State) : State := { s with de := false, re := true }

/-! ## Completion -/

/-- `finish`: a command ends with a code and its data (60_exceptions.md R325). -/
def State.finish (s : State) (code lastCause : Code) (data0 data1 : Word) : State :=
  { s.setIrq doneIrq with
    code := code, lastCause := lastCause, data0 := data0, data1 := data1, done := true, phase := .idle }

/-- `raise CODE` (00_scope.md R12, 60_exceptions.md R325). -/
def State.raise (s : State) (code : Code) : State := s.finish code .ok 0 0

/-- `report(c, k)` (43_retry.md R254). -/
def State.report (s : State) (c : Code) (k : BitVec 8) : State :=
  { s.setIrq attfailIrq with faillogCause := c, faillogAttempt := k }

/-! ## Buffers -/

/-- The first bytes of a buffer are replaced, the others stay. -/
def loadPrefix (bs buf : List Byte) : List Byte := bs ++ buf.drop bs.length

/-- A request frame is put into TXBUF, and TXLEN is its length (44_commands.md R280, 41_frame_codec.md R161). -/
def State.loadRequest (s : State) (bs : List Byte) : State :=
  { s with txbuf := loadPrefix bs s.txbuf, txlen := BitVec.ofNat 5 bs.length }

/-- A response frame stands in RXBUF, and RXLEN is its length (10_state.md R35, R38). -/
def State.loadResponse (s : State) (bs : List Byte) : State :=
  { s with rxbuf := loadPrefix bs s.rxbuf, rxlen := BitVec.ofNat 8 bs.length }

/-- The request frame in TXBUF. -/
def State.requestBytes (s : State) : List Byte := s.txbuf.take s.txlen.toNat

/-- The bytes the latest receive phase stored. -/
def State.responseBytes (s : State) : List Byte := s.rxbuf.take s.rxlen.toNat

/-! ## Acceptance -/

/-- The common part of an accepted command (44_commands.md R280). -/
def State.acceptCommon (s : State) (op : BitVec 4) : State :=
  { s with
    op := op, addr := s.regAddr, value := s.regValue, maxatt := s.regMaxatt,
    done := false, overrun := false, code := .ok, lastCause := .ok, data0 := 0, data1 := 0,
    faillogCause := .ok, faillogAttempt := 0, rxlen := 0, attempt := 0 }

/-- A command that makes no bus activity sets TXLEN to 0 (10_state.md R36, 44_commands.md R280). -/
def State.noRequest (s : State) : State := { s with txlen := 0 }

/-- A CMD write while BUSY is dropped and sets OVERRUN (44_commands.md R290). -/
def State.setOverrun (s : State) : State := { s with overrun := true }

/-- Acceptance of a command, or its refusal while busy (44_commands.md R280, R290). `body` runs on the state the
common part leaves. -/
def State.accept (s : State) (op : BitVec 4) (body : State → State) : State :=
  if s.phase = .idle then body (s.acceptCommon op) else s.setOverrun

/-- The edge into SETTLE: transmit mode and the settle delay (42_transceiver.md R207). -/
def State.enterSettle (s : State) : State :=
  { s.transmitMode with cnt := s.par.nSettle s.variant, phase := .settle }

/-- The start of a transaction, after the checks (44_commands.md R280). -/
def State.startTransaction (s : State) (op : TransOp) : State :=
  { s.loadRequest (requestFrame s.par op s.addr s.value) with
    txidx := 0, explen := responseLength op, variant := variantOf op,
    baudSel := decide (variantOf op = Variant.ascii), cause := .ok, attempt := 1 }.enterSettle

/-- The checks of a transaction command in order, then its start (44_commands.md R280). -/
def State.transact (s : State) (op : TransOp) : State :=
  if rangeFails op s.value then s.noRequest.raise .outOfRange
  else if s.maxatt = 0 then s.noRequest.raise .badConfig
  else s.startTransaction op

/-! ## Reset -/

/-- The edge of a cycle with `rst = 1` (70_reset_and_hazards.md R360, R361). The parameters and what is scheduled
from outside are not the block's to reset (R365). -/
def State.resetEdge (s : State) : State := State.afterReset s.par (s.cycle + 1) s.inputs s.cycle s.out

end Sys2Proof.Machine
end

