-- ==== Sys2Proof/Machine/Transceiver.lean ====
section
/-! DEFINITION. The half-duplex exchange, one clock cycle at a time (42_transceiver.md R206 to R220). -/

namespace Sys2Proof.Machine

/-- The phases in which the request frame is under way (42_transceiver.md R205). -/
def Phase.transmitting : Phase → Bool
  | .settle | .txFirst | .flush1 | .gap | .txRest | .flush2 | .postwrite => true
  | .idle | .receive | .eval => false

/-- `abort(c)` (42_transceiver.md R218). -/
def State.abort (s : State) (c : Code) : State := { s.receiveMode with cause := c, rxlen := 0, phase := .eval }

/-- One cycle of a counted delay: it ends in the cycle in which the counter is at most 1 (42_transceiver.md
R224). -/
def State.countdown (s : State) (leave : State) : State :=
  if 1 < s.cnt then { s with cnt := s.cnt - 1 } else leave

/-- The edge into RECEIVE (42_transceiver.md R213). -/
def State.enterReceive (s : State) : State :=
  { s.receiveMode with rxlen := 0, cnt := s.par.rxTimeout, cause := .ok, phase := .receive }

/-- One cycle of the transmit part of an exchange (42_transceiver.md R206 to R213, R218, R220). -/
def State.transmitCycle (s : State) (i : CycleIn) : State :=
  match s.phase with
  | .settle => s.countdown { s with phase := .txFirst, txidx := 0 }
  | .txFirst =>
    if i.txErr then s.abort .transportError
    else if i.txReady then { s with phase := .flush1, txidx := 1 }
    else s
  | .flush1 =>
    if i.txErr then s.abort .transportError
    else if i.txIdle then { s with phase := .gap, cnt := s.par.nGap s.variant }
    else s
  | .gap => s.countdown { s with phase := .txRest }
  | .txRest =>
    if i.txErr then s.abort .transportError
    else if i.txReady then
      if s.txidx.setWidth 5 = s.txlen - 1 then { s with phase := .flush2 } else { s with txidx := s.txidx + 1 }
    else s
  | .flush2 =>
    if i.txErr then s.abort .transportError
    else if i.txIdle then { s with phase := .postwrite, cnt := s.par.nPost s.variant }
    else s
  | .postwrite => s.countdown s.enterReceive
  | .idle | .receive | .eval => s

/-- The receive phase ends, with the cause recorded (42_transceiver.md R214 to R217). -/
def State.endReceive (s : State) (c : Code) : State := { s with cause := c, phase := .eval }

/-- The response is complete: the phase ends and the cause stays 0 (42_transceiver.md R214, R215). -/
def State.endResponse (s : State) : State := { s with phase := .eval }

/-- The timeout's part of a RECEIVE cycle (42_transceiver.md R214, R216). -/
def State.timeoutCycle (s : State) : State :=
  if s.cnt ≤ 1 then s.endReceive .shortRead else { s with cnt := s.cnt - 1 }

/-- A received byte is stored (42_transceiver.md R214). -/
def State.storeByte (s : State) (b : Byte) : State :=
  { s with rxbuf := s.rxbuf.set s.rxlen.toNat b, rxlen := s.rxlen + 1 }

/-- A received byte in fixed-length mode (42_transceiver.md R214). -/
def State.receiveFixed (s : State) (b : Byte) : State :=
  if s.rxlen + 1 = s.explen then (s.storeByte b).endResponse else (s.storeByte b).timeoutCycle

/-- The store of line mode: a byte past the buffer is dropped (42_transceiver.md R215, 41_frame_codec.md R190). -/
def State.storeInLine (s : State) (b : Byte) : State :=
  if s.rxlen.toNat < s.par.rxbufBytes then s.storeByte b else s

/-- A received byte in line mode (42_transceiver.md R215). -/
def State.receiveLine (s : State) (b : Byte) : State :=
  if b = 0x0A#8 then (s.storeInLine b).endResponse else (s.storeInLine b).timeoutCycle

/-- One cycle of RECEIVE (42_transceiver.md R214 to R217, R220). -/
def State.receiveCycle (s : State) (i : CycleIn) : State :=
  if i.rxErr then s.endReceive .transportError
  else if i.rxValid then (if s.explen = 0 then s.receiveLine i.rxData else s.receiveFixed i.rxData)
  else s.timeoutCycle

end Sys2Proof.Machine
end

