-- ==== Sys2Proof/Machine/Retry.lean ====
section
/-! DEFINITION. The retry sequencer: the EVAL cycle, and one cycle of the whole sequencer (43_retry.md R250 to
R260). -/

namespace Sys2Proof.Machine

/-- The next attempt begins at the edge that ends the failed one's EVAL (43_retry.md R253, R259). -/
def State.retry (s : State) : State := { s with attempt := s.attempt + 1 }.enterSettle

/-- A failed attempt: it is reported, and then retried or the command is exhausted (43_retry.md R254, R255,
R259). -/
def State.failAttempt (s : State) (c : Code) : State :=
  let t := s.report c s.attempt
  if s.attempt.toNat < s.maxatt.toNat then t.retry else t.finish .exhausted c 0 0

/-- A judged response ends the command or fails the attempt (43_retry.md R256, R259). -/
def State.conclude (s : State) : Verdict → State
  | .accept code d0 d1 => s.finish code .ok d0 d1
  | .reject c => s.failAttempt c

/-- The EVAL cycle: a cause recorded by the exchange beats validation (43_retry.md R259, 60_exceptions.md R324). -/
def State.evalCycle (s : State) (v : Verdict) : State :=
  if s.cause = .ok then s.conclude v else s.failAttempt s.cause

/-- EVAL on what RXBUF holds, for the command `s.op` names. In EVAL that is always a transaction command; no rule
covers another opcode there, and the state then stays as it is. DESIGN CHOICE, unsafe: log entry 8. -/
def State.evalBuffer (s : State) : State :=
  match TransOp.ofCode s.op with
  | some op => s.evalCycle (judge s.par op s.responseBytes (s.txByte 5))
  | none => s

/-- One cycle of the sequencer, straight from the phase table (42_transceiver.md R206). -/
def State.sequencerCycle (s : State) : State :=
  match s.phase with
  | .idle => s
  | .receive => s.receiveCycle s.now
  | .eval => s.evalBuffer
  | .settle | .txFirst | .flush1 | .gap | .txRest | .flush2 | .postwrite => s.transmitCycle s.now

/-- The cycle of the transmit part with a given request frame in TXBUF. Outside the transmit part no request frame
is under way and nothing happens (42_transceiver.md R205, R223). -/
def State.sendFrame (s : State) (bs : List Byte) : State :=
  if s.phase.transmitting then (s.loadRequest bs).transmitCycle s.now else s

/-- The EVAL cycle with a given response frame in RXBUF. In any other phase a response frame has no effect: its
bytes are dropped (42_transceiver.md R219). -/
def State.judgeFrame (s : State) (op : TransOp) (bs : List Byte) : State :=
  if s.phase = .eval then (s.loadResponse bs).evalCycle (judge s.par op bs (s.txByte 5)) else s

end Sys2Proof.Machine
end

