-- ==== Sys2Proof/Machine/CrcCommands.lean ====
section
/-! DEFINITION. The two CRC commands (40_crc.md R149 to R151). -/

namespace Sys2Proof.Machine

/-- CRC_INIT (40_crc.md R149): CRC takes the seed. -/
def execCrcInit (_ignored : BitVec 28) (s : State) : Host.Outcome State Fault Refusal :=
  .next (s.accept 0x1#4 fun t =>
    { t.noRequest with crc := 0xFFFF#16 }.finish .ok .ok (zext32 0xFFFF#16) 0)

/-- CRC_BYTE (40_crc.md R150): one byte step over VALUE[7:0]. -/
def execCrcByte (_ignored : BitVec 28) (s : State) : Host.Outcome State Fault Refusal :=
  .next (s.accept 0x2#4 fun t =>
    let c := crcUpdate t.crc (loByte t.regValue)
    { t.noRequest with crc := c }.finish .ok .ok (zext32 c) 0)

end Sys2Proof.Machine
end

