-- ==== Sys2Proof/Machine/Reserved.lean ====
section
/-! DEFINITION. The reserved opcodes: each is accepted and finishes at once with ILLEGAL_COMMAND (44_commands.md
R280, R289). -/

namespace Sys2Proof.Machine

/-- The body all reserved opcodes share (44_commands.md R289). -/
def State.illegal (s : State) : State := s.noRequest.raise .illegalCommand

/-- RESERVED_0x0 (44_commands.md R289). -/
def execReserved0 (_ignored : BitVec 28) (s : State) : Host.Outcome State Fault Refusal :=
  .next (s.accept 0x0#4 State.illegal)

/-- RESERVED_0xA (44_commands.md R289). -/
def execReservedA (_ignored : BitVec 28) (s : State) : Host.Outcome State Fault Refusal :=
  .next (s.accept 0xA#4 State.illegal)

/-- RESERVED_0xB (44_commands.md R289). -/
def execReservedB (_ignored : BitVec 28) (s : State) : Host.Outcome State Fault Refusal :=
  .next (s.accept 0xB#4 State.illegal)

/-- RESERVED_0xC (44_commands.md R289). -/
def execReservedC (_ignored : BitVec 28) (s : State) : Host.Outcome State Fault Refusal :=
  .next (s.accept 0xC#4 State.illegal)

/-- RESERVED_0xD (44_commands.md R289). -/
def execReservedD (_ignored : BitVec 28) (s : State) : Host.Outcome State Fault Refusal :=
  .next (s.accept 0xD#4 State.illegal)

/-- RESERVED_0xE (44_commands.md R289). -/
def execReservedE (_ignored : BitVec 28) (s : State) : Host.Outcome State Fault Refusal :=
  .next (s.accept 0xE#4 State.illegal)

/-- RESERVED_0xF (44_commands.md R289). -/
def execReservedF (_ignored : BitVec 28) (s : State) : Host.Outcome State Fault Refusal :=
  .next (s.accept 0xF#4 State.illegal)

end Sys2Proof.Machine
end

