-- ==== Sys2Proof/Machine/Transactions.lean ====
section
/-! DEFINITION. The transaction commands: the acceptance cycle of each (44_commands.md R280 to R288, R290). The
exchange that follows is the sequencer's. -/

namespace Sys2Proof.Machine

/-- READ_TEMP (44_commands.md R282). -/
def execReadTemp (_ignored : BitVec 28) (s : State) : Host.Outcome State Fault Refusal :=
  .next (s.accept 0x3#4 fun t => t.transact .readTemp)

/-- READ_EMIS (44_commands.md R283). -/
def execReadEmis (_ignored : BitVec 28) (s : State) : Host.Outcome State Fault Refusal :=
  .next (s.accept 0x4#4 fun t => t.transact .readEmis)

/-- WRITE_ID (44_commands.md R284). -/
def execWriteId (_ignored : BitVec 28) (s : State) : Host.Outcome State Fault Refusal :=
  .next (s.accept 0x5#4 fun t => t.transact .writeId)

/-- WRITE_EMIS (44_commands.md R285). -/
def execWriteEmis (_ignored : BitVec 28) (s : State) : Host.Outcome State Fault Refusal :=
  .next (s.accept 0x6#4 fun t => t.transact .writeEmis)

/-- CO2_QUERY (44_commands.md R286). -/
def execCo2Query (_ignored : BitVec 28) (s : State) : Host.Outcome State Fault Refusal :=
  .next (s.accept 0x7#4 fun t => t.transact .co2Query)

/-- CO2_STATUS (44_commands.md R287). -/
def execCo2Status (_ignored : BitVec 28) (s : State) : Host.Outcome State Fault Refusal :=
  .next (s.accept 0x8#4 fun t => t.transact .co2Status)

/-- ASCII_READ (44_commands.md R288). -/
def execAsciiRead (_ignored : BitVec 28) (s : State) : Host.Outcome State Fault Refusal :=
  .next (s.accept 0x9#4 fun t => t.transact .asciiRead)

end Sys2Proof.Machine
end

