-- ==== Sys2Proof/Machine/WireRequests.lean ====
section
/-! DEFINITION. The request frames (41_frame_codec.md R161 to R165, R180, R185). While a request frame stands in
TXBUF and the exchange is in its transmit part, the frame is what the block carries out: each meaning is one cycle
of the exchange with that frame's bytes in TXBUF (42_transceiver.md R206 to R213).
DESIGN CHOICE, unsafe: log entry 6. -/

namespace Sys2Proof.Machine

/-- REQ_READ_TEMP (41_frame_codec.md R162). -/
def execReqReadTemp (addr : Byte) (reg count : Half) (crcLo crcHi : Byte) (s : State) :
    Host.Outcome State Fault Refusal :=
  .next (s.sendFrame (encode s.par (.reqReadTemp addr reg count crcLo crcHi)))

/-- REQ_READ_EMIS (41_frame_codec.md R163). -/
def execReqReadEmis (addr : Byte) (reg count : Half) (crcLo crcHi : Byte) (s : State) :
    Host.Outcome State Fault Refusal :=
  .next (s.sendFrame (encode s.par (.reqReadEmis addr reg count crcLo crcHi)))

/-- REQ_WRITE_ID (41_frame_codec.md R164). -/
def execReqWriteId (addr value crcLo crcHi : Byte) (s : State) : Host.Outcome State Fault Refusal :=
  .next (s.sendFrame (encode s.par (.reqWriteId addr value crcLo crcHi)))

/-- REQ_WRITE_EMIS (41_frame_codec.md R165). -/
def execReqWriteEmis (addr value crcLo crcHi : Byte) (s : State) : Host.Outcome State Fault Refusal :=
  .next (s.sendFrame (encode s.par (.reqWriteEmis addr value crcLo crcHi)))

/-- REQ_CO2_QUERY (41_frame_codec.md R180). -/
def execReqCo2Query (frame : Frame8) (s : State) : Host.Outcome State Fault Refusal :=
  .next (s.sendFrame (encode s.par (.reqCo2Query frame)))

/-- REQ_CO2_STATUS (41_frame_codec.md R180). -/
def execReqCo2Status (frame : Frame8) (s : State) : Host.Outcome State Fault Refusal :=
  .next (s.sendFrame (encode s.par (.reqCo2Status frame)))

/-- REQ_ASCII_READ (41_frame_codec.md R185). -/
def execReqAsciiRead (s : State) : Host.Outcome State Fault Refusal :=
  .next (s.sendFrame (encode s.par .reqAsciiRead))

end Sys2Proof.Machine
end

