-- ==== Sys2Proof/Machine/WireResponses.lean ====
section
/-! DEFINITION. The response frames (41_frame_codec.md R167 to R173, R182, R183, R187, R189). A complete response
in RXBUF is what the EVAL cycle carries out: each meaning validates the frame and finishes the command, or fails
the attempt (43_retry.md R259). DESIGN CHOICE, unsafe: log entry 6. -/

namespace Sys2Proof.Machine

/-- RSP_READ_TEMP (41_frame_codec.md R167, R169). -/
def execRspReadTemp (x0 x1 x2 : Byte) (probe ambient : Half) (crcLo crcHi : Byte) (s : State) :
    Host.Outcome State Fault Refusal :=
  .next (s.judgeFrame .readTemp (encode s.par (.rspReadTemp x0 x1 x2 probe ambient crcLo crcHi)))

/-- RSP_READ_EMIS (41_frame_codec.md R167, R170). -/
def execRspReadEmis (x0 x1 x2 x3 emissivity crcLo crcHi : Byte) (s : State) : Host.Outcome State Fault Refusal :=
  .next (s.judgeFrame .readEmis (encode s.par (.rspReadEmis x0 x1 x2 x3 emissivity crcLo crcHi)))

/-- The command a write response answers (41_frame_codec.md R171): both are judged alike. -/
def State.writeOp (s : State) : TransOp := if s.op = TransOp.code .writeEmis then .writeEmis else .writeId

/-- RSP_WRITE (41_frame_codec.md R167, R171, R172). -/
def execRspWrite (x0 x1 x2 x3 x4 echo crcLo crcHi : Byte) (s : State) : Host.Outcome State Fault Refusal :=
  .next (s.judgeFrame s.writeOp (encode s.par (.rspWrite x0 x1 x2 x3 x4 echo crcLo crcHi)))

/-- The command a CO2 response answers (41_frame_codec.md R183): the status query publishes no field. -/
def State.co2Op (s : State) : TransOp := if s.op = TransOp.code .co2Status then .co2Status else .co2Query

/-- RSP_CO2 (41_frame_codec.md R182, R183). -/
def execRspCo2 (x0 x1 x2 : Byte) (co2 : Half) (x5 x6 x7 : Byte) (s : State) : Host.Outcome State Fault Refusal :=
  .next (s.judgeFrame s.co2Op (encode s.par (.rspCo2 x0 x1 x2 co2 x5 x6 x7)))

/-- RSP_ASCII (41_frame_codec.md R187, R189). -/
def execRspAscii (line : List Byte) (s : State) : Host.Outcome State Fault Refusal :=
  .next (s.judgeFrame .asciiRead (encode s.par (.rspAscii line)))

end Sys2Proof.Machine
end

