-- ==== Sys2Proof/Machine/Dispatch.lean ====
section
/-! DEFINITION. One arm for each instruction: a direct call of its meaning. -/

namespace Sys2Proof.Machine

/-- The meaning of an instruction. -/
def exec (i : Instr) (s : State) : Host.Outcome State Fault Refusal :=
  match i with
  | .crcInit ignored => Sys2Proof.Machine.execCrcInit ignored s
  | .crcByte ignored => Sys2Proof.Machine.execCrcByte ignored s
  | .readTemp ignored => Sys2Proof.Machine.execReadTemp ignored s
  | .readEmis ignored => Sys2Proof.Machine.execReadEmis ignored s
  | .writeId ignored => Sys2Proof.Machine.execWriteId ignored s
  | .writeEmis ignored => Sys2Proof.Machine.execWriteEmis ignored s
  | .co2Query ignored => Sys2Proof.Machine.execCo2Query ignored s
  | .co2Status ignored => Sys2Proof.Machine.execCo2Status ignored s
  | .asciiRead ignored => Sys2Proof.Machine.execAsciiRead ignored s
  | .reserved0 ignored => Sys2Proof.Machine.execReserved0 ignored s
  | .reservedA ignored => Sys2Proof.Machine.execReservedA ignored s
  | .reservedB ignored => Sys2Proof.Machine.execReservedB ignored s
  | .reservedC ignored => Sys2Proof.Machine.execReservedC ignored s
  | .reservedD ignored => Sys2Proof.Machine.execReservedD ignored s
  | .reservedE ignored => Sys2Proof.Machine.execReservedE ignored s
  | .reservedF ignored => Sys2Proof.Machine.execReservedF ignored s
  | .reqReadTemp addr reg count crcLo crcHi => Sys2Proof.Machine.execReqReadTemp addr reg count crcLo crcHi s
  | .reqReadEmis addr reg count crcLo crcHi => Sys2Proof.Machine.execReqReadEmis addr reg count crcLo crcHi s
  | .reqWriteId addr value crcLo crcHi => Sys2Proof.Machine.execReqWriteId addr value crcLo crcHi s
  | .reqWriteEmis addr value crcLo crcHi => Sys2Proof.Machine.execReqWriteEmis addr value crcLo crcHi s
  | .reqCo2Query frame => Sys2Proof.Machine.execReqCo2Query frame s
  | .reqCo2Status frame => Sys2Proof.Machine.execReqCo2Status frame s
  | .reqAsciiRead => Sys2Proof.Machine.execReqAsciiRead s
  | .rspReadTemp x0 x1 x2 probe ambient crcLo crcHi => Sys2Proof.Machine.execRspReadTemp x0 x1 x2 probe ambient crcLo crcHi s
  | .rspReadEmis x0 x1 x2 x3 emissivity crcLo crcHi => Sys2Proof.Machine.execRspReadEmis x0 x1 x2 x3 emissivity crcLo crcHi s
  | .rspWrite x0 x1 x2 x3 x4 echo crcLo crcHi => Sys2Proof.Machine.execRspWrite x0 x1 x2 x3 x4 echo crcLo crcHi s
  | .rspCo2 x0 x1 x2 co2 x5 x6 x7 => Sys2Proof.Machine.execRspCo2 x0 x1 x2 co2 x5 x6 x7 s
  | .rspAscii line => Sys2Proof.Machine.execRspAscii line s

end Sys2Proof.Machine
end

