-- ==== Sys2Proof/Machine/HostBus.lean ====
section
/-! DEFINITION. The host register window: which register a word index names, what a read returns and what a write
does (10_state.md R21 to R39; 20_memory.md R60 to R66). -/

namespace Sys2Proof

/-- `h_addr`: the adapter drops address bits 1:0 (20_memory.md R65). DEDUCED, safe: log entry 7. -/
def HostAccess.wordIndex (h : HostAccess) : BitVec 6 := h.addr.extractLsb' 2 6

/-- The access is a whole word, or there is none (20_memory.md R65). -/
def HostAccess.whole (h : HostAccess) : Bool := !h.en || decide (h.width = .word)

namespace Machine

/-- The registers of the window (10_state.md R21). A buffer word carries the index of its first byte. -/
inductive Reg where
  | cmd
  | addr
  | value
  | maxatt
  | status
  | data0
  | data1
  | crc
  | lines
  | irqStatus
  | irqEnable
  | faillog
  | rxlen
  | txlen
  | txbuf (first : Nat)
  | rxbuf (first : Nat)
  | unmapped
  deriving DecidableEq, Repr

/-- The byte offset of a word (20_memory.md R60). -/
def byteOffset (index : BitVec 6) : Nat := 4 * index.toNat

/-- The register at a byte offset (10_state.md R21, R38, R39). -/
def regAt (p : Params) (offset : Nat) : Reg :=
  match offset with
  | 0x00 => .cmd
  | 0x04 => .addr
  | 0x08 => .value
  | 0x0C => .maxatt
  | 0x10 => .status
  | 0x14 => .data0
  | 0x18 => .data1
  | 0x1C => .crc
  | 0x20 => .lines
  | 0x24 => .irqStatus
  | 0x28 => .irqEnable
  | 0x2C => .faillog
  | 0x30 => .rxlen
  | 0x34 => .txlen
  | o =>
    if 0x40 ≤ o ∧ o < 0x50 then .txbuf (o - 0x40)
    else if 0x80 ≤ o ∧ o < 0x80 + p.rxbufBytes then .rxbuf (o - 0x80)
    else .unmapped

/-- What a register shows (10_state.md R22 to R39). -/
def State.readReg (s : State) : Reg → Word
  | .cmd => 0
  | .addr => zext32 s.regAddr
  | .value => zext32 s.regValue
  | .maxatt => zext32 s.regMaxatt
  | .status => s.statusWord
  | .data0 => s.data0
  | .data1 => s.data1
  | .crc => zext32 s.crc
  | .lines => s.linesWord
  | .irqStatus => zext32 s.irqStatus
  | .irqEnable => zext32 s.irqEnable
  | .faillog => s.faillogWord
  | .rxlen => zext32 s.rxlen
  | .txlen => zext32 s.txlen
  | .txbuf k => packWord (s.txByte k) (s.txByte (k + 1)) (s.txByte (k + 2)) (s.txByte (k + 3))
  | .rxbuf k => packWord (s.rxByte k) (s.rxByte (k + 1)) (s.rxByte (k + 2)) (s.rxByte (k + 3))
  | .unmapped => 0

/-- `view(h_addr)` (20_memory.md R62). -/
def State.view (s : State) (index : BitVec 6) : Word := s.readReg (regAt s.par (byteOffset index))

/-- A write to a register other than CMD (20_memory.md R63). Bits above the register's width are ignored, and a
read-only register or an unmapped offset takes no write. -/
def State.writeReg (s : State) (r : Reg) (w : Word) : State :=
  match r with
  | .addr => { s with regAddr := w.setWidth 8 }
  | .value => { s with regValue := w.setWidth 16 }
  | .maxatt => { s with regMaxatt := w.setWidth 8 }
  | .crc => { s with crc := w.setWidth 16 }
  | .irqStatus => s.ackIrq (w.setWidth 2)
  | .irqEnable => { s with irqEnable := w.setWidth 2 }
  | .cmd | .status | .data0 | .data1 | .lines | .faillog | .rxlen | .txlen | .txbuf _ | .rxbuf _ | .unmapped => s

/-- The register this cycle's host access names. -/
def State.hostReg (s : State) : Reg := regAt s.par (byteOffset s.now.host.wordIndex)

/-- The host writes CMD in this cycle (20_memory.md R63). -/
def State.commandWrite (s : State) : Bool := s.now.host.en && s.now.host.we && decide (s.hostReg = .cmd)

/-- The host's part of a cycle without a CMD write (20_memory.md R62, R63): a read changes nothing. -/
def State.hostCycle (s : State) : State :=
  if s.now.host.en && s.now.host.we then s.writeReg s.hostReg s.now.host.wdata else s

/-- `h_rdata` in this cycle (20_memory.md R62); free without a read and while `rst = 1`. -/
def State.hostRead (s : State) : Word :=
  if s.now.host.en && !s.now.host.we && !s.now.rst then s.view s.now.host.wordIndex
  else Config.undrivenRead (s.cycle + 1)

/-- What the block drives in this cycle (10_state.md R42). -/
def State.outputs (s : State) : Outputs where
  de := s.de
  rePin := s.rePin
  baudSel := s.baudSel
  txValid := s.txValid
  txData := s.txByte s.txidx.toNat
  irq := s.irq
  hRdata := s.hostRead

/-- The byte transferred to the transport in this cycle, if one is (42_transceiver.md R200, R218). R200's condition
does not name `rst`, and `rst` does not reach the transport (70_reset_and_hazards.md R365): a byte taken in a cycle
with `rst = 1` is transferred, although the block ignores that `tx_ready` (R360). DEDUCED, unsafe: log entry 12. -/
def State.wireByte (s : State) : Option Byte :=
  if s.txValid && s.now.txReady && !s.now.txErr then some s.outputs.txData else none

/-- The end of a cycle that began in `before`: its inputs are used up, and its outputs are on record. -/
def State.closeCycle (before after : State) : State :=
  { after with inputs := before.inputs.tail, cycle := before.cycle + 1, out := before.outputs }

end Machine

end Sys2Proof
end

