-- ==== Sys2Proof/Machine/Cycle.lean ====
section
/-! DEFINITION. One clock cycle: what is fetched in it, the host's part, the sequencer's part, and placing an
instruction where the next cycle fetches it (00_scope.md R12, R14; 20_memory.md R61 to R65; 42_transceiver.md
R206). -/

namespace Sys2Proof.Machine

/-- The next of an outcome. -/
def andThen (o : Host.Outcome State Fault Refusal) (f : State → Host.Outcome State Fault Refusal) :
    Host.Outcome State Fault Refusal :=
  match o with
  | .next s => f s
  | .fault r => .fault r
  | .refused r => .refused r

/-- The bytes the host's CMD write carries. -/
def State.commandBytes (s : State) : List Byte := wordBytes s.now.host.wdata

/-- The command the host issues in this cycle, if it writes CMD (44_commands.md R280). -/
def State.fetchCommand (s : State) : Option Instr :=
  if s.commandWrite then (decode s.par .command s.commandBytes).toOption else none

/-- Where the sequencer's frame stands in this cycle: the request in TXBUF during the transmit part, the complete
response in RXBUF in EVAL, and nothing otherwise. -/
def State.frameContext (s : State) : Option (DecodeContext × List Byte) :=
  match TransOp.ofCode s.op with
  | none => none
  | some op =>
    if s.phase.transmitting then some (.request op, s.requestBytes)
    else if s.phase = .eval ∧ s.cause = .ok then some (.response op, s.responseBytes)
    else none

/-- The frame the sequencer carries out in this cycle, if one stands there. -/
def State.fetchFrame (s : State) : Option Instr :=
  match s.frameContext with
  | some (c, bs) => (decode s.par c bs).toOption
  | none => none

/-- The host's part of a cycle: a command is run, any other write is made, and a read changes nothing. -/
def State.hostPart (s : State) : Host.Outcome State Fault Refusal :=
  match s.fetchCommand with
  | some i => exec i s
  | none => .next s.hostCycle

/-- The sequencer's part of a cycle that began in `before`, run on the state `s` the host's part left: the fetched
frame is run, and without one the phase table applies as it stands. Nothing the host's part changes while a
command runs is read here, so one order of the two parts gives what the single edge gives (20_memory.md R73); an
interrupt bit that is cleared and set in one cycle ends set (60_exceptions.md R328). DEDUCED, safe: log entry 7. -/
def State.sequencerPart (before s : State) : Host.Outcome State Fault Refusal :=
  if before.phase = .idle then .next s
  else
    match before.fetchFrame with
    | some i => exec i s
    | none => .next s.sequencerCycle

/-- One clock cycle. -/
def State.clock (s : State) : Host.Outcome State Fault Refusal :=
  if s.now.rst then .next (s.closeCycle s.resetEdge)
  else if s.now.host.whole then
    andThen s.hostPart fun t => andThen (s.sequencerPart t) fun u => .next (s.closeCycle u)
  else .refused (.narrowAccess s.now.host.width)

/-! ## Placing an instruction -/

/-- No host access. -/
def quietHost : HostAccess := { en := false, we := false, addr := 0, width := .word, wdata := 0 }

/-- A host write of a whole word. -/
def hostWrite (addr : Byte) (w : Word) : HostAccess :=
  { en := true, we := true, addr := addr, width := .word, wdata := w }

/-- A cycle in which the transport is ready and idle and delivers nothing. -/
def quietCycle (h : HostAccess) : CycleIn :=
  { rst := false, host := h, txReady := true, txIdle := true, txErr := false, rxValid := false, rxData := 0,
    rxErr := false }

/-- An instruction's bytes are placed where the next cycle fetches them: a command on the CMD port of that cycle,
a request frame in TXBUF at TX_FIRST with the lines in transmit mode, a response frame in RXBUF at EVAL. -/
def State.place (s : State) (c : DecodeContext) (bs : List Byte) : State :=
  match c with
  | .command =>
    let w := packWord (bs.getD 0 0) (bs.getD 1 0) (bs.getD 2 0) (bs.getD 3 0)
    { s with inputs := quietCycle (hostWrite 0x00#8 w) :: s.inputs }
  | .request op =>
    { s.transmitMode.loadRequest bs with
      op := op.code, phase := .txFirst, txidx := 0, inputs := quietCycle quietHost :: s.inputs }
  | .response op =>
    { s.receiveMode.loadResponse bs with
      op := op.code, phase := .eval, cause := .ok, inputs := quietCycle quietHost :: s.inputs }

end Sys2Proof.Machine
end

