-- ==== Sys2Proof/Machine/Step.lean ====
section
/-! DEFINITION. One step is one clock cycle (00_scope.md R14, R15). -/

namespace Sys2Proof.Machine

/-- One step of the machine. -/
def step (s : State) : Host.Outcome State Fault Refusal := s.clock

/-- `s` with an instruction of the opcode table placed where `step` fetches its next instruction. What that is for
each kind of row: DESIGN CHOICE, safe: log entry 9. -/
def State.withFetchWord (s : State) (nbits w : Nat) : State :=
  match tableContext s.par (bytesOf (nbits / 8) w) with
  | some c => s.place c (bytesOf (nbits / 8) w)
  | none => s

end Sys2Proof.Machine
end

