-- ==== Sys2Proof/Safety.lean ====
section
/-! DEFINITION. What a safe run of this machine keeps, in the terms the statements use: the invariants of the
lines, the results, the attempts, the request, the buffers and the counter, and runs of several cycles. -/

namespace Sys2Proof.Machine

/-- `n` steps, stopping at the first fault or refusal. -/
def stepN : Nat → State → Host.Outcome State Fault Refusal
  | 0, s => .next s
  | n + 1, s => andThen (step s) (stepN n)

/-- A cycle without reset whose host access, if there is one, is a whole word. -/
def plainCycle (i : CycleIn) : Bool := !i.rst && i.host.whole

/-- At least `n` plain cycles are scheduled. -/
def State.plainFor (s : State) (n : Nat) : Prop := n ≤ s.inputs.length ∧ ∀ i ∈ s.inputs.take n, plainCycle i = true

/-- The causes the sequencer retries (43_retry.md R252). -/
def retriedCauses : List Code := [.transportError, .checksumMismatch, .shortRead, .formatError]

/-- The codes a finished command can show (60_exceptions.md R321). -/
def finalCodes : List Code := [.ok, .valueRejected, .outOfRange, .exhausted, .illegalCommand, .badConfig]

/-- The control lines: never both on or both off, transmit mode exactly in the transmit part of an exchange
(42_transceiver.md R203, 44_commands.md R292). -/
structure State.LinesInv (s : State) : Prop where
  opposite : s.de = !s.re
  direction : s.de = s.phase.transmitting

/-- The published results (10_state.md R26 to R28, 20_memory.md R74, 60_exceptions.md R321): only final codes, a
last cause exactly with EXHAUSTED, data only with OK and VALUE_REJECTED, and nothing while a command runs. -/
structure State.ResultInv (s : State) : Prop where
  code_final : s.code ∈ finalCodes
  cause_of_exchange : s.cause ∈ [Code.ok, .transportError, .shortRead]
  log_retried : s.faillogCause = .ok ∨ s.faillogCause ∈ retriedCauses
  last_of_exhausted : s.code = .exhausted → s.lastCause ∈ retriedCauses
  last_otherwise : s.code ≠ .exhausted → s.lastCause = .ok
  data0_of_result : s.code ≠ .ok → s.code ≠ .valueRejected → s.data0 = 0
  data1_of_ok : s.code ≠ .ok → s.data1 = 0
  running : s.phase ≠ .idle → s.done = false ∧ s.code = .ok ∧ s.data0 = 0 ∧ s.data1 = 0

/-- The attempt counter (43_retry.md R257, R260). -/
structure State.AttemptInv (s : State) : Prop where
  bounded : s.attempt.toNat ≤ s.maxatt.toNat
  started : s.phase ≠ .idle → 1 ≤ s.attempt.toNat

/-- While a command runs, it is a transaction command, and the request, the response length, the variant and the
baud rate are those of its latched operands (43_retry.md R258, 42_transceiver.md R204). -/
def State.RequestInv (s : State) : Prop :=
  s.phase ≠ .idle → ∃ op, TransOp.ofCode s.op = some op
    ∧ s.requestBytes = requestFrame s.par op s.addr s.value
    ∧ s.txlen = (if op = .asciiRead then 16#5 else 8#5)
    ∧ s.explen = responseLength op ∧ s.variant = variantOf op ∧ s.baudSel = decide (op = .asciiRead)

/-- The buffers and their lengths (10_state.md R35 to R40, 42_transceiver.md R221). -/
structure State.BufferInv (s : State) : Prop where
  size_bounds : 16 ≤ s.par.rxbufBytes ∧ s.par.rxbufBytes ≤ 128
  tx_size : s.txbuf.length = 16
  rx_size : s.rxbuf.length = s.par.rxbufBytes
  txlen_fits : s.txlen.toNat ≤ 16
  explen_fits : s.explen.toNat ≤ 9
  rxlen_fits : s.rxlen.toNat ≤ s.par.rxbufBytes
  receiving : s.phase = .receive → s.explen ≠ 0 → s.rxlen.toNat < s.explen.toNat
  complete : s.phase = .eval → s.cause = .ok → s.explen ≠ 0 → s.rxlen = s.explen

/-- The phases that count (42_transceiver.md R224). -/
def Phase.counting : Phase → Bool
  | .settle | .gap | .postwrite | .receive => true
  | .idle | .txFirst | .flush1 | .txRest | .flush2 | .eval => false

/-- The counter and the transmit index (42_transceiver.md R206, R211, R224). -/
structure State.CounterInv (s : State) : Prop where
  tx_size : s.txbuf.length = 16
  txlen_fits : s.txlen.toNat ≤ 16
  timeout_pos : 1 ≤ s.par.rxTimeout
  length_pos : s.phase ≠ .idle → 2 ≤ s.txlen.toNat
  count_pos : s.phase.counting = true → 1 ≤ s.cnt
  count_fits : s.cnt ≤ s.par.maxCount
  index_first : s.phase = .txFirst → s.txidx = 0
  index_second : s.phase = .flush1 ∨ s.phase = .gap → s.txidx = 1
  index_rest : s.phase = .txRest → 1 ≤ s.txidx.toNat ∧ s.txidx.toNat < s.txlen.toNat

/-- The phases that may follow a phase in one cycle without reset (42_transceiver.md R206, R223). -/
def Phase.successors : Phase → List Phase
  | .idle => [.idle, .settle]
  | .settle => [.settle, .txFirst]
  | .txFirst => [.txFirst, .flush1, .eval]
  | .flush1 => [.flush1, .gap, .eval]
  | .gap => [.gap, .txRest]
  | .txRest => [.txRest, .flush2, .eval]
  | .flush2 => [.flush2, .postwrite, .eval]
  | .postwrite => [.postwrite, .receive]
  | .receive => [.receive, .eval]
  | .eval => [.settle, .idle]

end Sys2Proof.Machine
end

