-- ==== Sys2Proof/Certificates/Slice0/Obligations.lean ====
section
/-! DEFINITION. The statements for the provers. A statement about an instruction's next state writes the whole next
state as a record update of the old one, so every field the update does not name is unchanged: that is its frame,
and there is no memory beside the two buffers in the record. -/

open Sys2Proof Sys2Proof.Machine

/-! ## Words of the spec that the statements use -/

namespace Sys2Proof.Claims

/-- The opcode of a command word (30_encoding.md R91). -/
def commandOp : Instr → Option (BitVec 4)
  | .reserved0 _ => some 0x0
  | .crcInit _ => some 0x1
  | .crcByte _ => some 0x2
  | .readTemp _ => some 0x3
  | .readEmis _ => some 0x4
  | .writeId _ => some 0x5
  | .writeEmis _ => some 0x6
  | .co2Query _ => some 0x7
  | .co2Status _ => some 0x8
  | .asciiRead _ => some 0x9
  | .reservedA _ => some 0xA
  | .reservedB _ => some 0xB
  | .reservedC _ => some 0xC
  | .reservedD _ => some 0xD
  | .reservedE _ => some 0xE
  | .reservedF _ => some 0xF
  | _ => none

/-- The opcode map of 30_encoding.md R91: the row of OP 0x0, 0x1, and so on to 0xF, each taking the ignored bits. -/
def opcodeMap : List (BitVec 28 → Instr) :=
  [.reserved0, .crcInit, .crcByte, .readTemp, .readEmis, .writeId, .writeEmis, .co2Query, .co2Status, .asciiRead,
    .reservedA, .reservedB, .reservedC, .reservedD, .reservedE, .reservedF]

/-- The reserved opcodes (30_encoding.md R92). -/
def isReserved : Instr → Bool
  | .reserved0 _ | .reservedA _ | .reservedB _ | .reservedC _ | .reservedD _ | .reservedE _ | .reservedF _ => true
  | _ => false

/-- The transaction command a command word issues (30_encoding.md R91). -/
def transactionOf : Instr → Option TransOp
  | .readTemp _ => some .readTemp
  | .readEmis _ => some .readEmis
  | .writeId _ => some .writeId
  | .writeEmis _ => some .writeEmis
  | .co2Query _ => some .co2Query
  | .co2Status _ => some .co2Status
  | .asciiRead _ => some .asciiRead
  | _ => none

/-- The request frames: REQ_READ_TEMP, REQ_READ_EMIS, REQ_WRITE_ID, REQ_WRITE_EMIS, REQ_CO2_QUERY, REQ_CO2_STATUS
and REQ_ASCII_READ. -/
def isRequest : Instr → Bool
  | .reqReadTemp .. | .reqReadEmis .. | .reqWriteId .. | .reqWriteEmis .. | .reqCo2Query _ | .reqCo2Status _
  | .reqAsciiRead => true
  | _ => false

/-- The response frames: RSP_READ_TEMP, RSP_READ_EMIS, RSP_WRITE, RSP_CO2 and RSP_ASCII. -/
def isResponse : Instr → Bool
  | .rspReadTemp .. | .rspReadEmis .. | .rspWrite .. | .rspCo2 .. | .rspAscii _ => true
  | _ => false

/-- The state after a command that finishes at acceptance: the operands are latched, nothing is sent, and the code
and DATA0 are published (44_commands.md R280, R281; 60_exceptions.md R325). -/
def finishedAtOnce (s : State) (op : BitVec 4) (code : Code) (data0 : Word) : State :=
  { s with
    op := op, addr := s.regAddr, value := s.regValue, maxatt := s.regMaxatt, attempt := 0, txlen := 0, rxlen := 0,
    faillogCause := .ok, faillogAttempt := 0, overrun := false, done := true, code := code, lastCause := .ok,
    data0 := data0, data1 := 0, irqStatus := s.irqStatus ||| 0b01#2 }

/-- The state after the acceptance of a transaction command that passed its checks (44_commands.md R280). -/
def started (s : State) (op : TransOp) (frame : List Byte) : State :=
  { s with
    op := op.code, addr := s.regAddr, value := s.regValue, maxatt := s.regMaxatt, attempt := 1,
    txbuf := frame ++ s.txbuf.drop frame.length, txlen := BitVec.ofNat 5 frame.length, txidx := 0, rxlen := 0,
    explen := responseLength op, variant := variantOf op, baudSel := decide (op = .asciiRead),
    faillogCause := .ok, faillogAttempt := 0, overrun := false, done := false, code := .ok, lastCause := .ok,
    data0 := 0, data1 := 0, cause := .ok, de := true, re := false, cnt := s.par.nSettle (variantOf op),
    phase := .settle }

/-- `s` with a request frame in TXBUF. -/
def withRequest (s : State) (frame : List Byte) : State :=
  { s with txbuf := frame ++ s.txbuf.drop frame.length, txlen := BitVec.ofNat 5 frame.length }

/-- `s` with a response frame in RXBUF. -/
def withResponse (s : State) (frame : List Byte) : State :=
  { s with rxbuf := frame ++ s.rxbuf.drop frame.length, rxlen := BitVec.ofNat 8 frame.length }

/-- The state after a command that finishes in EVAL (60_exceptions.md R325). -/
def published (s : State) (code : Code) (data0 data1 : Word) : State :=
  { s with
    code := code, lastCause := .ok, data0 := data0, data1 := data1, done := true,
    irqStatus := s.irqStatus ||| 0b01#2, phase := .idle }

/-- The state after a failed attempt that is retried (43_retry.md R254, R259). -/
def retried (s : State) (c : Code) : State :=
  { s with
    faillogCause := c, faillogAttempt := s.attempt, irqStatus := s.irqStatus ||| 0b10#2,
    attempt := s.attempt + 1, de := true, re := false, cnt := s.par.nSettle s.variant, phase := .settle }

/-- The state after the last failed attempt (43_retry.md R254, R255, R259). -/
def exhausted (s : State) (c : Code) : State :=
  { s with
    faillogCause := c, faillogAttempt := s.attempt, irqStatus := s.irqStatus ||| 0b10#2 ||| 0b01#2,
    code := .exhausted, lastCause := c, data0 := 0, data1 := 0, done := true, phase := .idle }

/-- The state after a failed attempt, retried while attempts remain (43_retry.md R259). -/
def failed (s : State) (c : Code) : State :=
  if s.attempt.toNat < s.maxatt.toNat then retried s c else exhausted s c

/-- The CRC bytes of a frame are those of the bytes before them. -/
def crcMatches (body : List Byte) (lo hi : Byte) : Prop := crc16 body = be16 hi lo

/-- Four hexadecimal characters stand at the value's offset of a line (41_frame_codec.md R187). -/
def hexAt (line : List Byte) (o : Nat) : Prop :=
  o + 4 ≤ line.length ∧ ∀ k, k < 4 → isHex (line.getD (o + k) 0) = true

/-- The value that four hexadecimal characters of a line give, the first one most significant (41_frame_codec.md
R189; which character comes first is general knowledge there). -/
def lineValue (line : List Byte) (o : Nat) : Word :=
  (hexVal (line.getD o 0) ++ hexVal (line.getD (o + 1) 0) ++ hexVal (line.getD (o + 2) 0)
    ++ hexVal (line.getD (o + 3) 0) : BitVec 16).setWidth 32

/-- `n` is the number of clock cycles of a delay of `ms` milliseconds: the least one that is at least 1 and not
shorter than the delay, `max(1, ceil(ms * P_CLK_HZ / 1000))` (00_scope.md R8, 42_transceiver.md R224). -/
def isDelay (p : Params) (ms n : Nat) : Prop :=
  1 ≤ n ∧ ms * p.clkHz ≤ 1000 * n ∧ (n = 1 ∨ 1000 * (n - 1) < ms * p.clkHz)

/-- The registers that a host's write loads, but for IRQ_STATUS (20_memory.md R63). -/
def hostRegisters (s : State) := (s.regAddr, s.regValue, s.regMaxatt, s.crc, s.irqEnable)

/-- One bit of one byte of a frame is flipped. -/
def flipBit (f : List Byte) (byte bit : Nat) : List Byte := f.set byte (f.getD byte 0 ^^^ (1#8 <<< bit))

/-- The bits the host clears in IRQ_STATUS in this cycle (60_exceptions.md R328). -/
def ackBits (s : State) : BitVec 2 :=
  if s.now.host.en ∧ s.now.host.we ∧ s.hostReg = .irqStatus then s.now.host.wdata.setWidth 2 else 0

/-- The attempt in EVAL fails (43_retry.md R252, R259). -/
def attemptFails (s : State) (op : TransOp) : Bool :=
  decide (s.cause ≠ .ok) || decide (validate s.par op s.responseBytes ≠ .ok)

/-- What the sequencer alone owns: everything but the host's registers, OVERRUN, IRQ_STATUS and the model's own
fields. -/
def sequencerView (s : State) :=
  ((s.phase, s.op, s.addr, s.value, s.maxatt, s.variant, s.attempt, s.cnt, s.txidx, s.txlen),
    (s.rxlen, s.explen, s.cause, s.txbuf, s.rxbuf, s.de, s.re, s.baudSel),
    (s.done, s.code, s.lastCause, s.data0, s.data1, s.faillogCause, s.faillogAttempt))

/-- `s` with other inputs in the coming cycle. -/
def withNow (s : State) (i : CycleIn) : State := { s with inputs := i :: s.inputs.tail }

/-- A cycle without a host access in which the transport is ready and idle and the device is silent. -/
def silentCycle : CycleIn :=
  { rst := false, host := { en := false, we := false, addr := 0, width := .word, wdata := 0 }, txReady := true,
    txIdle := true, txErr := false, rxValid := false, rxData := 0, rxErr := false }

/-- The same with one received byte. -/
def deliver (b : Byte) : CycleIn := { silentCycle with rxValid := true, rxData := b }

/-- The cycles of the transmit part of an exchange with an always ready transport (42_transceiver.md R222). -/
def transmitCycles (p : Params) (op : TransOp) : Nat :=
  p.nSettle (variantOf op) + p.nGap (variantOf op) + p.nPost (variantOf op) + (if op = .asciiRead then 16 else 8) + 2

/-- The bytes handed to the transport in the next `n` cycles, in order (42_transceiver.md R200). -/
def wireTrace : Nat → State → List Byte
  | 0, _ => []
  | n + 1, s =>
    s.wireByte.toList ++ (match step s with | .next t => wireTrace n t | .fault _ => [] | .refused _ => [])

/-- The transmit phases that listen to the transport. -/
def offering (p : Phase) : Bool := p = .txFirst || p = .flush1 || p = .txRest || p = .flush2

end Sys2Proof.Claims

open Sys2Proof.Claims

/-! ## The CRC-16 generator -/

/-- 40_crc.md R142: the table form of the byte step. -/
def Obligations.CrcUpdateTableForm : Prop :=
  ∀ (c : Half) (b : Byte), crcUpdate c b = (c >>> 8) ^^^ crcTable ((c ^^^ b.setWidth 16).setWidth 8)

/-- 40_crc.md R148: the byte step is linear over XOR. -/
def Obligations.CrcUpdateLinear : Prop :=
  (∀ (c1 c2 : Half) (b1 b2 : Byte), crcUpdate (c1 ^^^ c2) (b1 ^^^ b2) = crcUpdate c1 b1 ^^^ crcUpdate c2 b2)
    ∧ crcUpdate 0 0 = 0

/-- 40_crc.md R146: a sequence followed by its own CRC has residue 0, and the residue test gives the same verdict
as the check of R145. -/
def Obligations.CrcResidueIsZero : Prop :=
  (∀ m : List Byte, crc16 (m ++ [loByte (crc16 m), hiByte (crc16 m)]) = 0)
    ∧ ∀ f : List Byte, 2 ≤ f.length → (crcOk f = true ↔ crc16 f = 0)

/-- 40_crc.md R147: an encoded sequence passes the check, and no single-bit error of it does. -/
def Obligations.CrcDetectsSingleBitErrors : Prop :=
  ∀ b : List Byte, crcOk (withCrc b) = true
    ∧ ∀ byte bit, byte < (withCrc b).length → bit < 8 → crcOk (flipBit (withCrc b) byte bit) = false

/-! ## Encodings -/

/-- Every instruction with an encoding is read back, in every place where it may stand. -/
def Obligations.DecodeOfEncode : Prop :=
  ∀ (p : Params) (i : Instr), i.encodable = true → ∀ c ∈ i.contexts, decode p c (encode p i) = .ok i

/-- What the decoder reads is what stood there, bit for bit. -/
def Obligations.EncodeOfDecode : Prop :=
  ∀ (p : Params) (c : DecodeContext) (bs : List Byte) (i : Instr), decode p c bs = .ok i →
    encode p i = bs ∧ c ∈ i.contexts ∧ i.encodable = true

/-- 30_encoding.md R90, R91: a word written to CMD is the command of the opcode map at its bits 3:0, whatever its bits
31:4 hold. Seven words written out from the spec's encodings (30_encoding.md R91, R101; 41_frame_codec.md R164, R169)
decode to what they stand for. -/
def Obligations.OpcodeMapAndSampleWords : Prop :=
  ∀ p : Params, (∀ w : Word, ∃ row, opcodeMap[w.toNat % 16]? = some row
      ∧ decode p .command [w.setWidth 8, (w >>> 8).setWidth 8, (w >>> 16).setWidth 8, (w >>> 24).setWidth 8]
        = .ok (row ((w >>> 4).setWidth 28)))
    ∧ decode p .command [0x01#8, 0x00#8, 0x00#8, 0x00#8] = .ok (.crcInit 0)
    ∧ decode p .command [0x12#8, 0x00#8, 0x00#8, 0x00#8] = .ok (.crcByte 1)
    ∧ decode p .command [0xF9#8, 0xFF#8, 0xFF#8, 0xFF#8] = .ok (.asciiRead 0xFFFFFFF)
    ∧ decode p .command [0x0A#8, 0x00#8, 0x00#8, 0x80#8] = .ok (.reservedA 0x8000000)
    ∧ decode p (.request .writeId) [0x01#8, 0x06#8, 0x03#8, 0xE8#8, 0x00#8, 0x05#8, 0xC9#8, 0xB9#8]
        = .ok (.reqWriteId 0x01 0x05 0xC9 0xB9)
    ∧ (p.asciiCtrl = 0x02 →
      decode p (.request .asciiRead) [0x02#8, 0x30#8, 0x31#8, 0x44#8, 0x52#8, 0x53#8, 0x2C#8, 0x30#8, 0x31#8, 0x2C#8,
          0x30#8, 0x30#8, 0x30#8, 0x31#8, 0x0D#8, 0x0A#8] = .ok .reqAsciiRead)
    ∧ decode p (.response .readTemp) [0x01#8, 0x03#8, 0x04#8, 0x00#8, 0xEB#8, 0x00#8, 0xD2#8, 0x0A#8, 0x5A#8]
        = .ok (.rspReadTemp 0x01 0x03 0x04 0x00EB 0x00D2 0x0A 0x5A)

/-- 41_frame_codec.md R161 to R165, R180, R185: the request frame of a command whose operands pass their check
decodes to a well-formed request of that command. -/
def Obligations.RequestFramesAreWellFormed : Prop :=
  ∀ (p : Params) (op : TransOp) (addr : Byte) (value : Half), rangeFails op value = false →
    ∃ i, decode p (.request op) (requestFrame p op addr value) = .ok i ∧ isRequest i = true ∧ i.wellFormed p = true

/-- 41_frame_codec.md R162 to R165, R180, R185; 30_encoding.md R99, R101: the bytes of every request frame. The two
literal frames and the ASCII request do not depend on the operands, and the ASCII request opens with 0x02 where
P_ASCII_CTRL has the value 00_scope.md R8 gives it. -/
def Obligations.RequestFrameBytes : Prop :=
  ∀ (p : Params) (addr : Byte) (value : Half),
    (let f := [addr, 0x03#8, hiByte p.regTemp, loByte p.regTemp, hiByte p.cntTemp, loByte p.cntTemp];
      requestFrame p .readTemp addr value = f ++ [loByte (crc16 f), hiByte (crc16 f)])
    ∧ (let f := [addr, 0x04#8, hiByte p.regEmis, loByte p.regEmis, hiByte p.cntEmis, loByte p.cntEmis];
      requestFrame p .readEmis addr value = f ++ [loByte (crc16 f), hiByte (crc16 f)])
    ∧ (let f := [addr, 0x06#8, 0x03#8, 0xE8#8, 0x00#8, loByte value];
      requestFrame p .writeId addr value = f ++ [loByte (crc16 f), hiByte (crc16 f)])
    ∧ (let f := [addr, 0x06#8, 0x03#8, 0x20#8, 0x00#8, loByte value];
      requestFrame p .writeEmis addr value = f ++ [loByte (crc16 f), hiByte (crc16 f)])
    ∧ (let q := p.co2QueryFrame;
      requestFrame p .co2Query addr value = [q.b0, q.b1, q.b2, q.b3, q.b4, q.b5, q.b6, q.b7])
    ∧ (let q := p.co2StatusFrame;
      requestFrame p .co2Status addr value = [q.b0, q.b1, q.b2, q.b3, q.b4, q.b5, q.b6, q.b7])
    ∧ (let f := [0x30#8, 0x31#8, 0x44#8, 0x52#8, 0x53#8, 0x2C#8, 0x30#8, 0x31#8, 0x2C#8, 0x30#8, 0x30#8, 0x30#8,
          0x31#8, 0x0D#8, 0x0A#8];
      requestFrame p .asciiRead addr value = p.asciiCtrl :: f
        ∧ requestFrame Config.params .asciiRead addr value = 0x02#8 :: f)

/-- 41_frame_codec.md R166, 30_encoding.md R91, 00_scope.md R8, R9: the response length and the variant of every
transaction command, the delays of every variant in clock cycles, and the values of the parameters that have one. The
counter's width holds every count. -/
def Obligations.LengthsVariantsAndDelays : Prop :=
  (responseLength .readTemp = 9 ∧ responseLength .readEmis = 7 ∧ responseLength .writeId = 8
      ∧ responseLength .writeEmis = 8 ∧ responseLength .co2Query = 8 ∧ responseLength .co2Status = 8
      ∧ responseLength .asciiRead = 0)
    ∧ (variantOf .readTemp = .crc ∧ variantOf .readEmis = .crc ∧ variantOf .writeId = .crc
      ∧ variantOf .writeEmis = .crc ∧ variantOf .co2Query = .fixed ∧ variantOf .co2Status = .fixed
      ∧ variantOf .asciiRead = .ascii)
    ∧ (∀ p : Params,
      isDelay p p.settleMs.crc (p.nSettle .crc) ∧ isDelay p p.settleMs.fixed (p.nSettle .fixed)
      ∧ isDelay p p.settleMs.ascii (p.nSettle .ascii)
      ∧ isDelay p p.gapMs.crc (p.nGap .crc) ∧ isDelay p p.gapMs.fixed (p.nGap .fixed)
      ∧ isDelay p p.gapMs.ascii (p.nGap .ascii)
      ∧ isDelay p p.postMs.crc (p.nPost .crc) ∧ isDelay p p.postMs.fixed (p.nPost .fixed)
      ∧ isDelay p p.postMs.ascii (p.nPost .ascii)
      ∧ p.rxTimeout < 2 ^ p.cntW ∧ ∀ v, p.nSettle v < 2 ^ p.cntW ∧ p.nGap v < 2 ^ p.cntW ∧ p.nPost v < 2 ^ p.cntW)
    ∧ (Config.params.settleMs = ⟨500, 500, 500⟩ ∧ Config.params.gapMs = ⟨1, 1, 1⟩
      ∧ Config.params.postMs = ⟨5, 5, 5⟩ ∧ Config.params.asciiCtrl = 0x02 ∧ Config.params.rxbufBytes = 64
      ∧ Config.params.wf = true)

/-! ## Commands at acceptance -/

/-- 40_crc.md R149: CRC_INIT sets CRC to the seed whatever it held, and is dropped while BUSY. -/
def Obligations.CrcInitResult : Prop :=
  ∀ (g : BitVec 28) (s : State),
    (s.phase = .idle → exec (.crcInit g) s = .next { finishedAtOnce s 0x1 .ok 0x0000FFFF with crc := 0xFFFF })
    ∧ (s.phase ≠ .idle → exec (.crcInit g) s = .next { s with overrun := true })

/-- 40_crc.md R150: CRC_BYTE runs one byte step over VALUE[7:0], and is dropped while BUSY. -/
def Obligations.CrcByteResult : Prop :=
  ∀ (g : BitVec 28) (s : State),
    (s.phase = .idle → exec (.crcByte g) s
      = .next { finishedAtOnce s 0x2 .ok ((crcUpdate s.crc (s.regValue.setWidth 8)).setWidth 32) with
          crc := crcUpdate s.crc (s.regValue.setWidth 8) })
    ∧ (s.phase ≠ .idle → exec (.crcByte g) s = .next { s with overrun := true })

/-- 44_commands.md R289: RESERVED_0x0 and RESERVED_0xA to RESERVED_0xF. -/
def Obligations.ReservedOpcodeFinishesIllegal : Prop :=
  ∀ (i : Instr) (op : BitVec 4) (s : State), isReserved i = true → commandOp i = some op → s.phase = .idle →
    exec i s = .next (finishedAtOnce s op .illegalCommand 0)

/-- 44_commands.md R280: READ_TEMP, READ_EMIS, WRITE_ID, WRITE_EMIS, CO2_QUERY, CO2_STATUS and ASCII_READ begin
their first attempt when the operands pass the checks. -/
def Obligations.TransactionAccepted : Prop :=
  ∀ (i : Instr) (op : TransOp) (s : State), transactionOf i = some op → s.phase = .idle →
    (op = .writeId → s.regValue.toNat ≤ 0x00FF) →
    (op = .writeEmis → 1 ≤ s.regValue.toNat ∧ s.regValue.toNat ≤ 99) → s.regMaxatt ≠ 0 →
    exec i s = .next (started s op (requestFrame s.par op s.regAddr s.regValue))

/-- 41_frame_codec.md R176: WRITE_ID and WRITE_EMIS out of range are refused before any bus activity, whatever
MAXATT holds, and no value in range is refused for its range. -/
def Obligations.WriteOutOfRangeRefused : Prop :=
  ∀ (g : BitVec 28) (s : State), s.phase = .idle →
    (0x00FF < s.regValue.toNat → exec (.writeId g) s = .next (finishedAtOnce s 0x5 .outOfRange 0))
    ∧ (s.regValue.toNat < 1 ∨ 99 < s.regValue.toNat →
        exec (.writeEmis g) s = .next (finishedAtOnce s 0x6 .outOfRange 0))
    ∧ (s.regValue.toNat ≤ 0x00FF → ∃ t, exec (.writeId g) s = .next t ∧ t.code ≠ .outOfRange)
    ∧ (1 ≤ s.regValue.toNat → s.regValue.toNat ≤ 99 →
        ∃ t, exec (.writeEmis g) s = .next t ∧ t.code ≠ .outOfRange)

/-- 44_commands.md R280: with MAXATT = 0 a transaction command whose value is in range ends in BAD_CONFIG. -/
def Obligations.ZeroMaxattRefused : Prop :=
  ∀ (i : Instr) (op : TransOp) (s : State), transactionOf i = some op → s.phase = .idle →
    (op = .writeId → s.regValue.toNat ≤ 0x00FF) →
    (op = .writeEmis → 1 ≤ s.regValue.toNat ∧ s.regValue.toNat ≤ 99) → s.regMaxatt = 0 →
    exec i s = .next (finishedAtOnce s op.code .badConfig 0)

/-- 44_commands.md R290: every command written while the sequencer runs is dropped and sets OVERRUN. -/
def Obligations.CommandWhileBusySetsOverrun : Prop :=
  ∀ (i : Instr) (op : BitVec 4) (s : State), commandOp i = some op → s.phase ≠ .idle →
    exec i s = .next { s with overrun := true }

/-! ## Request frames: the transmit part -/

/-- 42_transceiver.md R206, R207, R210, R213: the counted delays of the transmit part. That a frame under way is the
instruction the cycle runs is the model's choice: log entry 6. -/
def Obligations.RequestWaitsOutItsDelays : Prop :=
  ∀ (i : Instr) (s : State), isRequest i = true →
    let t := withRequest s (encode s.par i)
    (s.phase = .settle ∨ s.phase = .gap ∨ s.phase = .postwrite → 1 < s.cnt →
        exec i s = .next { t with cnt := s.cnt - 1 })
    ∧ (s.phase = .settle → s.cnt ≤ 1 → exec i s = .next { t with phase := .txFirst, txidx := 0 })
    ∧ (s.phase = .gap → s.cnt ≤ 1 → exec i s = .next { t with phase := .txRest })
    ∧ (s.phase = .postwrite → s.cnt ≤ 1 →
        exec i s = .next { t with
          de := false, re := true, rxlen := 0, cnt := s.par.rxTimeout, cause := .ok, phase := .receive })

/-- 42_transceiver.md R206, R208, R211: a byte the transport takes moves the frame on, and without it the block
waits. That a frame under way is the
instruction the cycle runs is the model's choice: log entry 6. -/
def Obligations.RequestBytesAreHandedOver : Prop :=
  ∀ (i : Instr) (s : State), isRequest i = true → s.now.txErr = false →
    let t := withRequest s (encode s.par i)
    (s.phase = .txFirst → s.now.txReady = true → exec i s = .next { t with phase := .flush1, txidx := 1 })
    ∧ (s.phase = .txRest → s.now.txReady = true → s.txidx.toNat + 1 = (encode s.par i).length →
        exec i s = .next { t with phase := .flush2 })
    ∧ (s.phase = .txRest → s.now.txReady = true → s.txidx.toNat + 1 < (encode s.par i).length →
        exec i s = .next { t with txidx := s.txidx + 1 })
    ∧ (s.phase = .txFirst ∨ s.phase = .txRest → s.now.txReady = false → exec i s = .next t)

/-- 42_transceiver.md R201, R206, R209, R212: a flush waits for the transport to be idle. That a frame under way is
the instruction the cycle runs is the model's choice: log entry 6. -/
def Obligations.RequestFlushWaitsForIdle : Prop :=
  ∀ (i : Instr) (s : State), isRequest i = true → s.now.txErr = false →
    let t := withRequest s (encode s.par i)
    (s.phase = .flush1 → s.now.txIdle = true →
        exec i s = .next { t with phase := .gap, cnt := s.par.nGap s.variant })
    ∧ (s.phase = .flush2 → s.now.txIdle = true →
        exec i s = .next { t with phase := .postwrite, cnt := s.par.nPost s.variant })
    ∧ (s.phase = .flush1 ∨ s.phase = .flush2 → s.now.txIdle = false → exec i s = .next t)

/-- 42_transceiver.md R218: a transport error in a transmit phase aborts the exchange and releases the bus, and no
byte is transferred, even when the transport is ready. That a frame under way is the
instruction the cycle runs is the model's choice: log entry 6. -/
def Obligations.TransmitErrorAborts : Prop :=
  ∀ (i : Instr) (s : State), isRequest i = true → offering s.phase = true → s.now.txErr = true →
    exec i s = .next { withRequest s (encode s.par i) with
      cause := .transportError, de := false, re := true, rxlen := 0, phase := .eval }
      ∧ s.wireByte = none

/-! ## Response frames: EVAL -/

/-- 41_frame_codec.md R167, R169: RSP_READ_TEMP with a matching CRC publishes both temperatures, sign-extended. That
a response frame is an instruction, put into RXBUF by `exec`, is the model's choice: log entry 6. -/
def Obligations.ReadTempResponsePublished : Prop :=
  ∀ (x0 x1 x2 : Byte) (probe ambient : Half) (lo hi : Byte) (s : State), s.phase = .eval → s.cause = .ok →
    crcMatches [x0, x1, x2, hiByte probe, loByte probe, hiByte ambient, loByte ambient] lo hi →
    exec (.rspReadTemp x0 x1 x2 probe ambient lo hi) s
      = .next (published (withResponse s [x0, x1, x2, hiByte probe, loByte probe, hiByte ambient, loByte ambient,
          lo, hi]) .ok (probe.signExtend 32) (ambient.signExtend 32))

/-- 41_frame_codec.md R167, R170: RSP_READ_EMIS with a matching CRC publishes byte 4 as it is. That a response frame
is an instruction, put into RXBUF by `exec`, is the model's choice: log entry 6. -/
def Obligations.ReadEmisResponsePublished : Prop :=
  ∀ (x0 x1 x2 x3 e lo hi : Byte) (s : State), s.phase = .eval → s.cause = .ok →
    crcMatches [x0, x1, x2, x3, e] lo hi →
    exec (.rspReadEmis x0 x1 x2 x3 e lo hi) s
      = .next (published (withResponse s [x0, x1, x2, x3, e, lo, hi]) .ok (e.setWidth 32) 0)

/-- 41_frame_codec.md R171, R172: RSP_WRITE with a matching CRC is an echo: OK when byte 5 is the byte sent, the
final VALUE_REJECTED otherwise, whatever attempts remain. That a response frame is an
instruction, put into RXBUF by `exec`, is the model's choice: log entry 6. -/
def Obligations.WriteResponseJudgedByEcho : Prop :=
  ∀ (x0 x1 x2 x3 x4 v lo hi : Byte) (s : State), s.phase = .eval → s.cause = .ok → 5 < s.txlen.toNat →
    crcMatches [x0, x1, x2, x3, x4, v] lo hi →
    exec (.rspWrite x0 x1 x2 x3 x4 v lo hi) s
      = .next (published (withResponse s [x0, x1, x2, x3, x4, v, lo, hi])
          (if v = s.txbuf.getD 5 0 then .ok else .valueRejected) (v.setWidth 32) 0)

/-- 41_frame_codec.md R182, R183: RSP_CO2 is published without any check: the value for CO2_QUERY, no field for
CO2_STATUS. That a response frame is an
instruction, put into RXBUF by `exec`, is the model's choice: log entry 6. -/
def Obligations.Co2ResponsePublished : Prop :=
  ∀ (x0 x1 x2 : Byte) (co2 : Half) (x5 x6 x7 : Byte) (s : State), s.phase = .eval → s.cause = .ok →
    let f := [x0, x1, x2, hiByte co2, loByte co2, x5, x6, x7]
    (s.op = 0x7 → exec (.rspCo2 x0 x1 x2 co2 x5 x6 x7) s
        = .next (published (withResponse s f) .ok (co2.setWidth 32) 0))
    ∧ (s.op = 0x8 → exec (.rspCo2 x0 x1 x2 co2 x5 x6 x7) s = .next (published (withResponse s f) .ok 0 0))

/-- 41_frame_codec.md R187, R189: a line with four hexadecimal characters at the offset publishes their value, the
first one most significant (general knowledge in R189). First of `exec` with RSP_ASCII: that a response frame is an
instruction, put into RXBUF by `exec`, is the model's choice, log entry 6. Then of the step in EVAL of ASCII_READ, on
the bytes that RXBUF holds, also those of a line that overflowed it (R190). -/
def Obligations.AsciiResponsePublished : Prop :=
  (∀ (line : List Byte) (s : State), s.phase = .eval → s.cause = .ok → hexAt line s.par.asciiValOffset →
      exec (.rspAscii line) s
        = .next (published (withResponse s line) .ok (lineValue line s.par.asciiValOffset) 0))
    ∧ ∀ s u : State, s.phase = .eval → s.cause = .ok → s.op = 0x9 → s.now.rst = false → s.now.host.whole = true →
      s.rxlen.toNat ≤ s.rxbuf.length → s.hostPart = .next u → hexAt s.responseBytes s.par.asciiValOffset →
      step s = .next (s.closeCycle (published u .ok (lineValue s.responseBytes s.par.asciiValOffset) 0))

/-- 41_frame_codec.md R188: the hexadecimal characters and their values. -/
def Obligations.HexDigitValues : Prop :=
  (∀ d : Nat, d < 10 → isHex (BitVec.ofNat 8 (0x30 + d)) = true
      ∧ hexVal (BitVec.ofNat 8 (0x30 + d)) = BitVec.ofNat 4 d)
    ∧ (∀ d : Nat, d < 6 → isHex (BitVec.ofNat 8 (0x41 + d)) = true
      ∧ hexVal (BitVec.ofNat 8 (0x41 + d)) = BitVec.ofNat 4 (10 + d)
      ∧ isHex (BitVec.ofNat 8 (0x61 + d)) = true ∧ hexVal (BitVec.ofNat 8 (0x61 + d)) = BitVec.ofNat 4 (10 + d))
    ∧ ∀ ch : Byte, isHex ch = true →
      (0x30 ≤ ch.toNat ∧ ch.toNat ≤ 0x39) ∨ (0x41 ≤ ch.toNat ∧ ch.toNat ≤ 0x46)
        ∨ (0x61 ≤ ch.toNat ∧ ch.toNat ≤ 0x66)

/-- 41_frame_codec.md R167, 43_retry.md R259: a CRC-framed response whose CRC does not match fails the attempt
with CHECKSUM_MISMATCH and is not decoded. That a response frame is an
instruction, put into RXBUF by `exec`, is the model's choice: log entry 6. -/
def Obligations.CorruptResponseFailsAttempt : Prop :=
  ∀ s : State, s.phase = .eval → s.cause = .ok →
    (∀ (x0 x1 x2 : Byte) (probe ambient : Half) (lo hi : Byte),
      ¬ crcMatches [x0, x1, x2, hiByte probe, loByte probe, hiByte ambient, loByte ambient] lo hi →
      exec (.rspReadTemp x0 x1 x2 probe ambient lo hi) s
        = .next (failed (withResponse s [x0, x1, x2, hiByte probe, loByte probe, hiByte ambient, loByte ambient,
            lo, hi]) .checksumMismatch))
    ∧ (∀ x0 x1 x2 x3 e lo hi : Byte, ¬ crcMatches [x0, x1, x2, x3, e] lo hi →
      exec (.rspReadEmis x0 x1 x2 x3 e lo hi) s
        = .next (failed (withResponse s [x0, x1, x2, x3, e, lo, hi]) .checksumMismatch))
    ∧ (∀ x0 x1 x2 x3 x4 v lo hi : Byte, ¬ crcMatches [x0, x1, x2, x3, x4, v] lo hi →
      exec (.rspWrite x0 x1 x2 x3 x4 v lo hi) s
        = .next (failed (withResponse s [x0, x1, x2, x3, x4, v, lo, hi]) .checksumMismatch))

/-- 41_frame_codec.md R187, 43_retry.md R259: a line without four hexadecimal characters at the offset fails the
attempt with FORMAT_ERROR. First of `exec` with RSP_ASCII: that a response frame is an instruction, put into RXBUF
by `exec`, is the model's choice, log entry 6. Then of the step in EVAL of ASCII_READ, on the bytes that RXBUF
holds, also those of a line that overflowed it (R190). -/
def Obligations.MalformedLineFailsAttempt : Prop :=
  (∀ (line : List Byte) (s : State), s.phase = .eval → s.cause = .ok → ¬ hexAt line s.par.asciiValOffset →
      exec (.rspAscii line) s = .next (failed (withResponse s line) .formatError))
    ∧ ∀ s u : State, s.phase = .eval → s.cause = .ok → s.op = 0x9 → s.now.rst = false → s.now.host.whole = true →
      s.rxlen.toNat ≤ s.rxbuf.length → s.hostPart = .next u → ¬ hexAt s.responseBytes s.par.asciiValOffset →
      step s = .next (s.closeCycle (failed u .formatError))

/-- 60_exceptions.md R324, 43_retry.md R259: in EVAL a cause recorded by the exchange beats validation. First of the
step in EVAL of a transaction command, whatever RXBUF holds. Then of `exec` with any response frame: no step makes
that call, for no frame is fetched when a cause is recorded, and what it gives is the model's choice, log entry 6.
-/
def Obligations.ExchangeCauseBeatsValidation : Prop :=
  (∀ (s u : State) (op : TransOp), s.phase = .eval → TransOp.ofCode s.op = some op → s.cause ≠ .ok →
      s.now.rst = false → s.now.host.whole = true → s.hostPart = .next u →
      step s = .next (s.closeCycle (failed u s.cause)))
    ∧ ∀ (i : Instr) (s : State), isResponse i = true → s.phase = .eval → s.cause ≠ .ok →
      exec i s = .next (failed (withResponse s (encode s.par i)) s.cause)

/-- A request frame outside the transmit part, and a response frame outside EVAL, change nothing (42_transceiver.md
R205, R219). What `exec` gives such a frame is the model's choice: log entry 6. -/
def Obligations.FramesOutsideTheirPhases : Prop :=
  ∀ (i : Instr) (s : State),
    (isRequest i = true → s.phase = .idle ∨ s.phase = .receive ∨ s.phase = .eval → exec i s = .next s)
    ∧ (isResponse i = true → s.phase ≠ .eval → exec i s = .next s)

/-! ## The step -/

/-- A step runs the decoded instruction. A CMD write runs the command its word decodes to, in every phase, as the
host's part of the cycle, and while idle that is the whole cycle. While a command runs, the step runs the frame that
stands in TXBUF or RXBUF, on the state `t` the host's part left. At its end the cycle's inputs are used up and its
outputs are on record. Fetching a frame this way is the model's choice: log entry 6. -/
def Obligations.StepRunsDecodedInstruction : Prop :=
  ∀ (s : State) (i : Instr), s.now.rst = false → s.now.host.whole = true →
    (s.commandWrite = true → decode s.par .command s.commandBytes = .ok i →
      s.hostPart = exec i s
      ∧ (s.phase = .idle → step s = andThen (exec i s) (fun t => .next (s.closeCycle t))))
    ∧ ∀ (t : State) (op : TransOp), s.hostPart = .next t → TransOp.ofCode s.op = some op →
      (s.phase.transmitting = true → decode s.par (.request op) s.requestBytes = .ok i →
        step s = andThen (exec i t) (fun u => .next (s.closeCycle u)))
      ∧ (s.phase = .eval → s.cause = .ok → decode s.par (.response op) s.responseBytes = .ok i →
        step s = andThen (exec i t) (fun u => .next (s.closeCycle u)))

/-- Running the decoded frame is running the phase table: fetching and decoding a frame loses nothing, and the
frames' meanings agree with 42_transceiver.md R206 and 43_retry.md R259. It answers the risk
of the model's choice to run frames as instructions: log entry 6. -/
def Obligations.StepFollowsPhaseTable : Prop :=
  ∀ s t : State, s.now.rst = false → s.now.host.whole = true → s.txlen.toNat ≤ s.txbuf.length →
    s.rxlen.toNat ≤ s.rxbuf.length → s.hostPart = .next t →
    step s = .next (s.closeCycle (if s.phase = .idle then t else t.sequencerCycle))

/-- 60_exceptions.md R338, 20_memory.md R65: every input in every state leads to a next state, but for a host access
that is not a whole word, which is refused. -/
def Obligations.StepStopsOnNarrowAccessAlone : Prop :=
  ∀ s : State,
    (s.now.rst = true ∨ s.now.host.whole = true → ∃ t, step s = .next t)
    ∧ (s.now.rst = false → s.now.host.en = true → s.now.host.width ≠ .word →
        step s = .refused (.narrowAccess s.now.host.width))

/-- 70_reset_and_hazards.md R360, R361: a cycle with `rst = 1` puts every element at its reset value, whatever ran
and whatever else arrived; the buffers hold arbitrary bytes (R362). -/
def Obligations.ResetEdge : Prop :=
  ∀ s : State, s.now.rst = true → ∃ t, step s = .next t
    ∧ t.regAddr = 0 ∧ t.regValue = 0 ∧ t.regMaxatt = 1 ∧ t.phase = .idle ∧ t.op = 0 ∧ t.addr = 0 ∧ t.value = 0
    ∧ t.maxatt = 1 ∧ t.variant = .crc ∧ t.attempt = 0 ∧ t.cnt = 0 ∧ t.txidx = 0 ∧ t.txlen = 0 ∧ t.rxlen = 0
    ∧ t.explen = 0 ∧ t.cause = .ok ∧ t.crc = 0xFFFF ∧ t.de = false ∧ t.re = true ∧ t.baudSel = false
    ∧ t.done = false ∧ t.overrun = false ∧ t.code = .ok ∧ t.lastCause = .ok ∧ t.data0 = 0 ∧ t.data1 = 0
    ∧ t.irqStatus = 0 ∧ t.irqEnable = 0 ∧ t.faillogCause = .ok ∧ t.faillogAttempt = 0
    ∧ t.txbuf.length = 16 ∧ t.rxbuf.length = s.par.rxbufBytes ∧ t.par = s.par

/-! ## The host window -/

/-- 70_reset_and_hazards.md R360: what a host reads after reset at every offset the spec gives a value for. -/
def Obligations.ResetRegisterReads : Prop :=
  let v := fun offset : Nat => State.reset.view (BitVec.ofNat 6 (offset / 4))
  v 0x00 = 0 ∧ v 0x04 = 0 ∧ v 0x08 = 0 ∧ v 0x0C = 1 ∧ v 0x10 = 0 ∧ v 0x14 = 0 ∧ v 0x18 = 0 ∧ v 0x1C = 0x0000FFFF
    ∧ v 0x20 = 0x00000002 ∧ v 0x24 = 0 ∧ v 0x28 = 0 ∧ v 0x2C = 0 ∧ v 0x30 = 0 ∧ v 0x34 = 0 ∧ v 0x38 = 0
    ∧ v 0x3C = 0 ∧ (∀ k : Nat, 0x14 ≤ k → k < 0x20 → State.reset.view (BitVec.ofNat 6 k) = 0)
    ∧ ∀ k : Nat, 0x30 ≤ k → k < 0x40 → State.reset.view (BitVec.ofNat 6 k) = 0

/-- 20_memory.md R62, R63; 60_exceptions.md R335: what a host access other than a CMD write does. In a cycle without a
host write the host's part changes nothing, and an idle cycle then holds the state. For a whole-word write to any other
offset, the host's part, in every phase, is the state with the one register written. In an idle cycle that is all the
step does. In every phase, also while a command runs, the write lands in its register and the other registers a host can
load stay after the step. IRQ_STATUS is left out of the last in EVAL alone, where the block may set its bits
(60_exceptions.md R328). That a cycle is the host's part and then the sequencer's is the model's reading of the one
edge: log entry 7. -/
def Obligations.HostWriteTable : Prop :=
  ∀ s : State,
    (s.now.host.en = false ∨ s.now.host.we = false →
      s.hostPart = .next s
      ∧ (s.phase = .idle → s.now.rst = false → s.now.host.whole = true → step s = .next (s.closeCycle s)))
    ∧ (s.now.rst = false → s.now.host.en = true → s.now.host.we = true → s.now.host.width = .word →
      let w := s.now.host.wdata
      let k := s.now.host.wordIndex.toNat
      ((k = 1 → s.hostPart = .next { s with regAddr := w.setWidth 8 })
        ∧ (k = 2 → s.hostPart = .next { s with regValue := w.setWidth 16 })
        ∧ (k = 3 → s.hostPart = .next { s with regMaxatt := w.setWidth 8 })
        ∧ (k = 7 → s.hostPart = .next { s with crc := w.setWidth 16 })
        ∧ (k = 9 → s.hostPart = .next { s with irqStatus := s.irqStatus &&& ~~~(w.setWidth 2) })
        ∧ (k = 10 → s.hostPart = .next { s with irqEnable := w.setWidth 2 })
        ∧ (k ∉ [0, 1, 2, 3, 7, 9, 10] → s.hostPart = .next s))
      ∧ (s.phase = .idle →
        (k = 1 → step s = .next (s.closeCycle { s with regAddr := w.setWidth 8 }))
        ∧ (k = 2 → step s = .next (s.closeCycle { s with regValue := w.setWidth 16 }))
        ∧ (k = 3 → step s = .next (s.closeCycle { s with regMaxatt := w.setWidth 8 }))
        ∧ (k = 7 → step s = .next (s.closeCycle { s with crc := w.setWidth 16 }))
        ∧ (k = 9 → step s = .next (s.closeCycle { s with irqStatus := s.irqStatus &&& ~~~(w.setWidth 2) }))
        ∧ (k = 10 → step s = .next (s.closeCycle { s with irqEnable := w.setWidth 2 }))
        ∧ (k ∉ [0, 1, 2, 3, 7, 9, 10] → step s = .next (s.closeCycle s)))
      ∧ (k ≠ 0 → ∃ t, step s = .next t ∧ t.overrun = s.overrun
        ∧ hostRegisters t = (if k = 1 then hostRegisters { s with regAddr := w.setWidth 8 }
            else if k = 2 then hostRegisters { s with regValue := w.setWidth 16 }
            else if k = 3 then hostRegisters { s with regMaxatt := w.setWidth 8 }
            else if k = 7 then hostRegisters { s with crc := w.setWidth 16 }
            else if k = 10 then hostRegisters { s with irqEnable := w.setWidth 2 }
            else hostRegisters s)
        ∧ (s.phase ≠ .eval →
            t.irqStatus = (if k = 9 then s.irqStatus &&& ~~~(w.setWidth 2) else s.irqStatus))))

/-- 20_memory.md R62: a read returns the view of the state before the edge and changes nothing: the step is that
of the same cycle without an access, but for the data read. -/
def Obligations.ReadHasNoSideEffect : Prop :=
  ∀ s : State, s.now.rst = false → s.now.host.en = true → s.now.host.we = false → s.now.host.width = .word →
    ∃ t u : State, step s = .next t
      ∧ step (withNow s { s.now with host := { s.now.host with en := false } }) = .next u
      ∧ t.out.hRdata = s.view s.now.host.wordIndex ∧ { t with out := u.out } = u

/-- 10_state.md R22 to R36, R39: what a read of every register but the two buffers shows, in every state. A register of
one field shows its element, zero-extended; CMD and the unmapped offsets show 0. STATUS, LINES and FAILLOG show their
fields at the fields' places, the other bits reading 0. And what the fields hold: the phase codes of 10_state.md R41,
the status codes of 60_exceptions.md R321 and the variant ids of 00_scope.md R3. -/
def Obligations.RegisterViews : Prop :=
  (∀ s : State,
    s.view 0 = 0 ∧ s.view 1 = s.regAddr.setWidth 32 ∧ s.view 2 = s.regValue.setWidth 32
    ∧ s.view 3 = s.regMaxatt.setWidth 32 ∧ s.view 5 = s.data0 ∧ s.view 6 = s.data1 ∧ s.view 7 = s.crc.setWidth 32
    ∧ s.view 9 = s.irqStatus.setWidth 32 ∧ s.view 10 = s.irqEnable.setWidth 32 ∧ s.view 12 = s.rxlen.setWidth 32
    ∧ s.view 13 = s.txlen.setWidth 32 ∧ s.view 14 = 0 ∧ s.view 15 = 0
    ∧ (∀ k : BitVec 6, 0x50 ≤ 4 * k.toNat → 4 * k.toNat < 0x80 → s.view k = 0)
    ∧ (∀ k : BitVec 6, 0x80 + s.par.rxbufBytes ≤ 4 * k.toNat → s.view k = 0)
    ∧ (s.view 4).toNat = (if s.phase = .idle then 0 else 1) + 2 * s.done.toNat + 4 * s.overrun.toNat
        + 16 * s.code.bits.toNat + 256 * s.lastCause.bits.toNat + 65536 * s.attempt.toNat
    ∧ (s.view 8).toNat = s.de.toNat + 2 * s.re.toNat + 4 * s.baudSel.toNat + 16 * s.phase.bits.toNat
        + 256 * (variantBits s.variant).toNat
    ∧ (s.view 11).toNat = s.faillogCause.bits.toNat + 256 * s.faillogAttempt.toNat)
  ∧ [Phase.idle, .settle, .txFirst, .flush1, .gap, .txRest, .flush2, .postwrite, .receive, .eval].map
      (fun p => p.bits.toNat) = [0, 1, 2, 3, 4, 5, 6, 7, 8, 9]
  ∧ [Code.ok, .transportError, .checksumMismatch, .shortRead, .valueRejected, .outOfRange, .exhausted,
      .unknownDevice, .formatError, .illegalCommand, .badConfig].map (fun c => c.bits.toNat)
      = [0, 1, 2, 3, 4, 5, 6, 7, 8, 9, 10]
  ∧ [Variant.crc, .fixed, .ascii].map (fun v => (variantBits v).toNat) = [0, 1, 2]

/-- 10_state.md R37, R38, 20_memory.md R66: a buffer word shows four bytes, the lowest index in bits 7:0, at every
index the length covers. -/
def Obligations.BufferWordLanes : Prop :=
  ∀ (s : State) (word k : Nat), k < 4 →
    (word < 4 → 4 * word + k < s.txlen.toNat →
      lane (s.view (BitVec.ofNat 6 (16 + word))) k = s.txbuf.getD (4 * word + k) 0)
    ∧ (s.par.rxbufBytes ≤ 128 → 4 * word < s.par.rxbufBytes → 4 * word + k < s.rxlen.toNat →
      lane (s.view (BitVec.ofNat 6 (32 + word))) k = s.rxbuf.getD (4 * word + k) 0)

/-- 10_state.md R42, 42_transceiver.md R202, R225, 60_exceptions.md R327: what the block drives in a cycle comes
from the state before its edge. That `tx_data` is the byte at the index also while `tx_valid` is 0, where
93_implementation_defined.md U6 calls it unspecified, is the model's choice: log entry 4. The byte transferred is that
of R200's condition, and that a cycle with `rst = 1` makes no exception is the model's reading: log entry 12. -/
def Obligations.OutputsOfCycle : Prop :=
  ∀ s t : State, step s = .next t →
    t.out.de = s.de ∧ t.out.rePin = (if s.par.reActiveLow then !s.re else s.re) ∧ t.out.baudSel = s.baudSel
    ∧ (t.out.txValid = true ↔ s.phase = .txFirst ∨ s.phase = .txRest)
    ∧ (s.txidx.toNat < s.txlen.toNat → t.out.txData = s.txbuf.getD s.txidx.toNat 0)
    ∧ (t.out.irq = true ↔ s.irqStatus &&& s.irqEnable ≠ 0)
    ∧ s.wireByte = (if t.out.txValid = true ∧ s.now.txReady = true ∧ s.now.txErr = false then some t.out.txData
        else none)

/-! ## Whole-machine rules -/

/-- 42_transceiver.md R203, 44_commands.md R292: every step keeps the line modes. -/
def Obligations.StepKeepsLines : Prop := ∀ s t : State, s.LinesInv → step s = .next t → t.LinesInv

/-- 60_exceptions.md R321, 20_memory.md R74: every step keeps the published results legal. -/
def Obligations.StepKeepsResults : Prop := ∀ s t : State, s.ResultInv → step s = .next t → t.ResultInv

/-- 43_retry.md R257, R260: every step keeps the attempt counter within the latched bound. -/
def Obligations.StepKeepsAttempts : Prop := ∀ s t : State, s.AttemptInv → step s = .next t → t.AttemptInv

/-- 43_retry.md R258, 20_memory.md R73: while a command runs, every step keeps its request, response length,
variant and baud rate those of the latched operands. -/
def Obligations.StepKeepsRequest : Prop := ∀ s t : State, s.RequestInv → step s = .next t → t.RequestInv

/-- 10_state.md R40, 42_transceiver.md R221: every step keeps the buffers and their lengths. -/
def Obligations.StepKeepsBuffers : Prop := ∀ s t : State, s.BufferInv → step s = .next t → t.BufferInv

/-- 42_transceiver.md R224: every step keeps the counter and the transmit index in range. -/
def Obligations.StepKeepsCounter : Prop := ∀ s t : State, s.CounterInv → step s = .next t → t.CounterInv

/-- The reset state meets every invariant. -/
def Obligations.ResetMeetsInvariants : Prop :=
  State.reset.LinesInv ∧ State.reset.ResultInv ∧ State.reset.AttemptInv ∧ State.reset.RequestInv
    ∧ State.reset.BufferInv ∧ State.reset.CounterInv

/-- 42_transceiver.md R206, R223: without reset, a phase is followed only by the phases of the table. -/
def Obligations.PhaseOrder : Prop :=
  ∀ s t : State, s.RequestInv → s.now.rst = false → step s = .next t → t.phase ∈ s.phase.successors

/-- 20_memory.md R71: without reset, a running command goes idle only by finishing in EVAL, which publishes DONE,
DONE_IRQ and a final code at that edge and leaves ATTEMPTS. -/
def Obligations.IdleIsReachedByFinishing : Prop :=
  ∀ s t : State, s.now.rst = false → s.phase ≠ .idle → step s = .next t → t.phase = .idle →
    s.phase = .eval ∧ t.done = true ∧ t.irqStatus.getLsbD 0 = true ∧ t.attempt = s.attempt
      ∧ t.code ∈ [Code.ok, .valueRejected, .exhausted]

/-- 40_crc.md R151: the only writers of the CRC register are reset, the host's write, CRC_INIT and CRC_BYTE. -/
def Obligations.CrcRegisterWriters : Prop :=
  ∀ s t : State, step s = .next t → t.crc ≠ s.crc →
    s.now.rst = true
      ∨ (s.now.host.en = true ∧ s.now.host.we = true
        ∧ (s.hostReg = .crc
          ∨ (s.hostReg = .cmd ∧ s.phase = .idle
            ∧ ∃ g, decode s.par .command s.commandBytes = .ok (.crcInit g)
              ∨ decode s.par .command s.commandBytes = .ok (.crcByte g))))

/-- 20_memory.md R73, 44_commands.md R291, 42_transceiver.md R223: no host access changes what a running command
does. -/
def Obligations.HostCannotDisturbCommand : Prop :=
  ∀ (s t u : State) (h : HostAccess), s.phase ≠ .idle → s.now.rst = false → s.now.host.whole = true →
    h.whole = true → step s = .next t → step (withNow s { s.now with host := h }) = .next u →
    sequencerView t = sequencerView u

/-- 42_transceiver.md R219: received bytes and errors outside RECEIVE, and the transmit signals outside TX_FIRST,
FLUSH1, TX_REST and FLUSH2, have no effect. -/
def Obligations.InputsOutsideTheirPhases : Prop :=
  ∀ s : State, s.now.rst = false →
    (s.phase ≠ .receive → ∀ (v e : Bool) (d : Byte),
      step (withNow s { s.now with rxValid := v, rxData := d, rxErr := e }) = step (withNow s s.now))
    ∧ (offering s.phase = false → ∀ a b c : Bool,
      step (withNow s { s.now with txReady := a, txIdle := b, txErr := c }) = step (withNow s s.now))

/-- 42_transceiver.md R214, R215, R217, R220: a cycle of RECEIVE. `u` is what the host's part of the cycle leaves. -/
def Obligations.ReceiveCycle : Prop :=
  ∀ s u : State, s.phase = .receive → s.now.rst = false → s.now.host.whole = true → s.hostPart = .next u →
    let d := s.now.rxData
    let stored := { u with rxbuf := s.rxbuf.set s.rxlen.toNat d, rxlen := s.rxlen + 1 }
    let kept := if s.rxlen.toNat < s.par.rxbufBytes then stored else u
    (s.now.rxErr = true → step s = .next (s.closeCycle { u with cause := .transportError, phase := .eval }))
    ∧ (s.now.rxErr = false → s.now.rxValid = false → 1 < s.cnt →
        step s = .next (s.closeCycle { u with cnt := s.cnt - 1 }))
    ∧ (s.now.rxErr = false → s.now.rxValid = false → s.cnt ≤ 1 →
        step s = .next (s.closeCycle { u with cause := .shortRead, phase := .eval }))
    ∧ (s.now.rxErr = false → s.now.rxValid = true → s.explen ≠ 0 → s.rxlen + 1 = s.explen →
        step s = .next (s.closeCycle { stored with phase := .eval }))
    ∧ (s.now.rxErr = false → s.now.rxValid = true → s.explen ≠ 0 → s.rxlen + 1 ≠ s.explen → 1 < s.cnt →
        step s = .next (s.closeCycle { stored with cnt := s.cnt - 1 }))
    ∧ (s.now.rxErr = false → s.now.rxValid = true → s.explen ≠ 0 → s.rxlen + 1 ≠ s.explen → s.cnt ≤ 1 →
        step s = .next (s.closeCycle { stored with cause := .shortRead, phase := .eval }))
    ∧ (s.now.rxErr = false → s.now.rxValid = true → s.explen = 0 → d = 0x0A →
        step s = .next (s.closeCycle { kept with phase := .eval }))
    ∧ (s.now.rxErr = false → s.now.rxValid = true → s.explen = 0 → d ≠ 0x0A → 1 < s.cnt →
        step s = .next (s.closeCycle { kept with cnt := s.cnt - 1 }))
    ∧ (s.now.rxErr = false → s.now.rxValid = true → s.explen = 0 → d ≠ 0x0A → s.cnt ≤ 1 →
        step s = .next (s.closeCycle { kept with cause := .shortRead, phase := .eval }))

/-- 60_exceptions.md R328: in EVAL, the interrupt bits the block sets win over those the host clears. -/
def Obligations.InterruptSetWins : Prop :=
  ∀ (s t : State) (op : TransOp), s.BufferInv → s.phase = .eval → TransOp.ofCode s.op = some op →
    s.now.rst = false → step s = .next t →
    t.irqStatus = (s.irqStatus &&& ~~~(ackBits s)) ||| (if attemptFails s op then 0b10#2 else 0)
      ||| (if t.phase = .idle then 0b01#2 else 0)

/-! ## Runs of several cycles -/

/-- 42_transceiver.md R207, R210, R213, R224: a counted delay of the transmit part lasts exactly as many cycles as
the counter says, whatever the host does. -/
def Obligations.CountedDelayIsExact : Prop :=
  ∀ (s : State) (n : Nat), s.phase = .settle ∨ s.phase = .gap ∨ s.phase = .postwrite → s.cnt = n + 1 →
    s.plainFor (n + 1) →
    (∀ k, k ≤ n → ∃ t, stepN k s = .next t ∧ t.phase = s.phase ∧ t.cnt = n + 1 - k)
    ∧ ∃ t, stepN (n + 1) s = .next t
      ∧ t.phase = (if s.phase = .settle then .txFirst else if s.phase = .gap then .txRest else .receive)

/-- 42_transceiver.md R216, R227: the receive phase ends within the count it was entered with, whatever arrives. -/
def Obligations.ReceiveIsBounded : Prop :=
  ∀ (s : State) (n : Nat), s.phase = .receive → s.cnt = n + 1 → s.plainFor (n + 1) →
    ∃ k t, 1 ≤ k ∧ k ≤ n + 1 ∧ stepN k s = .next t ∧ t.phase = .eval

/-- 42_transceiver.md R227: a transport that never takes a byte, or that never reports idle in a flush, and never
reports an error holds the block for as long as it likes. -/
def Obligations.TransmitHangIsAdmitted : Prop :=
  ∀ (s : State) (n : Nat), s.plainFor n →
    ((s.phase = .txFirst ∨ s.phase = .txRest) ∧ ∀ i ∈ s.inputs.take n, i.txReady = false ∧ i.txErr = false)
      ∨ ((s.phase = .flush1 ∨ s.phase = .flush2) ∧ ∀ i ∈ s.inputs.take n, i.txIdle = false ∧ i.txErr = false) →
    ∃ t, stepN n s = .next t ∧ t.phase = s.phase ∧ t.txidx = s.txidx

/-- 42_transceiver.md R222, 20_memory.md R75: with a transport that is always ready and a device that delivers one
byte a cycle, an exchange in fixed-length mode takes exactly N_SETTLE + N_GAP + N_POST + txlen + 2 + explen cycles.
The request frame goes out in it, byte by byte and in order, and the response then stands in RXBUF with the lines in
receive mode. -/
def Obligations.IdealExchangeDuration : Prop :=
  ∀ (s : State) (op : TransOp) (resp : List Byte) (rest : List CycleIn), s.RequestInv → s.BufferInv → s.CounterInv →
    s.phase = .settle → s.cnt = s.par.nSettle s.variant → TransOp.ofCode s.op = some op → op ≠ .asciiRead →
    resp.length = (responseLength op).toNat → resp.length ≤ s.par.rxTimeout →
    s.inputs = List.replicate (transmitCycles s.par op) silentCycle ++ resp.map deliver ++ rest →
    let d := transmitCycles s.par op + resp.length
    (∃ t, stepN d s = .next t ∧ t.phase = .eval ∧ t.cause = .ok ∧ t.responseBytes = resp ∧ t.de = false
      ∧ t.re = true ∧ t.attempt = s.attempt ∧ t.inputs = rest)
    ∧ wireTrace d s = requestFrame s.par op s.addr s.value
    ∧ ∀ k, k < d → ∃ t, stepN k s = .next t ∧ t.phase ≠ .eval ∧ t.phase ≠ .idle

/-- 43_retry.md R255, R257: with a device that never replies, a command whose bound is N makes exactly N attempts,
each of the transmit part, the receive timeout and one EVAL cycle, and then ends in EXHAUSTED with LAST_CAUSE
SHORT_READ, ATTEMPTS N and no data. -/
def Obligations.SilentBusExhausts : Prop :=
  ∀ (s : State) (op : TransOp), s.RequestInv → s.BufferInv → s.CounterInv → s.phase = .settle →
    s.cnt = s.par.nSettle s.variant → TransOp.ofCode s.op = some op → s.attempt = 1 → 1 ≤ s.maxatt.toNat →
    let a := transmitCycles s.par op + s.par.rxTimeout + 1
    s.inputs = List.replicate (s.maxatt.toNat * a) silentCycle →
    (∃ t, stepN (s.maxatt.toNat * a) s = .next t ∧ t.phase = .idle ∧ t.done = true ∧ t.code = .exhausted
      ∧ t.lastCause = .shortRead ∧ t.attempt = s.maxatt ∧ t.data0 = 0 ∧ t.data1 = 0
      ∧ t.faillogCause = .shortRead ∧ t.faillogAttempt = s.maxatt ∧ t.irqStatus = s.irqStatus ||| 0b11#2)
    ∧ ∀ k, k < s.maxatt.toNat * a → ∃ t, stepN k s = .next t ∧ t.phase ≠ .idle
end

