-- ==== Sys2Proof/Laws/Bits.lean ====
section
/-! SUPPORT. The bit helpers take apart what they put together. -/

namespace Sys2Proof.Machine

/-- Where the bits of a packed word come from. -/
theorem getLsbD_packWord (b0 b1 b2 b3 : Byte) (i : Nat) :
    (packWord b0 b1 b2 b3).getLsbD i
      = if i < 8 then b0.getLsbD i else if i < 16 then b1.getLsbD (i - 8)
        else if i < 24 then b2.getLsbD (i - 16) else b3.getLsbD (i - 24) := by
  unfold packWord
  change BitVec.getLsbD (w := 8 + 8 + 8 + 8) _ i = _
  simp only [BitVec.getLsbD_append]
  repeat' split
  all_goals first | rfl | omega

/-- Where the bits of a 16-bit value come from. -/
theorem getLsbD_be16 (hi lo : Byte) (i : Nat) :
    (be16 hi lo).getLsbD i = if i < 8 then lo.getLsbD i else hi.getLsbD (i - 8) := by
  unfold be16
  change BitVec.getLsbD (w := 8 + 8) _ i = _
  rw [BitVec.getLsbD_append]

@[simp] theorem be16_hiByte_loByte (h : Half) : be16 (hiByte h) (loByte h) = h := by
  apply BitVec.eq_of_getLsbD_eq
  intro i hi
  simp only [getLsbD_be16, hiByte, loByte, BitVec.getLsbD_extractLsb']
  split
  · simp; omega
  · have h1 : i - 8 < 8 := by omega
    have h2 : 8 + (i - 8) = i := by omega
    simp [h1, h2]

@[simp] theorem hiByte_be16 (a b : Byte) : hiByte (be16 a b) = a := by
  apply BitVec.eq_of_getLsbD_eq
  intro i hi
  have h : ¬ 8 + i < 8 := by omega
  simp only [hiByte, BitVec.getLsbD_extractLsb', getLsbD_be16, hi, h]
  simp [hi]

@[simp] theorem loByte_be16 (a b : Byte) : loByte (be16 a b) = b := by
  apply BitVec.eq_of_getLsbD_eq
  intro i hi
  simp only [loByte, BitVec.getLsbD_extractLsb', getLsbD_be16, Nat.zero_add, hi]
  simp [hi]

/-- A word is its four lanes. -/
@[simp] theorem packWord_lane (w : Word) : packWord (lane w 0) (lane w 1) (lane w 2) (lane w 3) = w := by
  apply BitVec.eq_of_getLsbD_eq
  intro i hi
  rw [getLsbD_packWord]
  simp only [lane, BitVec.getLsbD_extractLsb']
  repeat' split
  · simp [*]
  · have h1 : i - 8 < 8 := by omega
    have h2 : 8 + (i - 8) = i := by omega
    simp [h1, h2]
  · have h1 : i - 16 < 8 := by omega
    have h2 : 16 + (i - 16) = i := by omega
    simp [h1, h2]
  · have h1 : i - 24 < 8 := by omega
    have h2 : 24 + (i - 24) = i := by omega
    simp [h1, h2]

/-- The lanes of a packed word (20_memory.md R66). -/
theorem lane_packWord (b0 b1 b2 b3 : Byte) :
    lane (packWord b0 b1 b2 b3) 0 = b0 ∧ lane (packWord b0 b1 b2 b3) 1 = b1
      ∧ lane (packWord b0 b1 b2 b3) 2 = b2 ∧ lane (packWord b0 b1 b2 b3) 3 = b3 := by
  refine ⟨?_, ?_, ?_, ?_⟩ <;> (apply BitVec.eq_of_getLsbD_eq; intro i hi)
  all_goals simp only [lane, BitVec.getLsbD_extractLsb', getLsbD_packWord, hi, decide_true, Bool.true_and]
  · simp [hi]
  · have h1 : ¬ 8 + i < 8 := by omega
    have h2 : 8 + i < 16 := by omega
    simp [h1, h2]
  · have h1 : ¬ 16 + i < 8 := by omega
    have h2 : ¬ 16 + i < 16 := by omega
    have h3 : 16 + i < 24 := by omega
    simp [h1, h2, h3]
  · have h1 : ¬ 24 + i < 8 := by omega
    have h2 : ¬ 24 + i < 16 := by omega
    have h3 : ¬ 24 + i < 24 := by omega
    simp [h1, h2, h3]

/-- The lanes of a packed word, as a list. -/
@[simp] theorem wordBytes_packWord (b0 b1 b2 b3 : Byte) : wordBytes (packWord b0 b1 b2 b3) = [b0, b1, b2, b3] := by
  obtain ⟨h0, h1, h2, h3⟩ := lane_packWord b0 b1 b2 b3
  simp [wordBytes, h0, h1, h2, h3]

/-- Where the bits of a command word come from (30_encoding.md R90). -/
theorem getLsbD_commandWord (g : BitVec 28) (o : BitVec 4) (i : Nat) :
    (commandWord g o).getLsbD i = if i < 4 then o.getLsbD i else g.getLsbD (i - 4) := by
  unfold commandWord
  change BitVec.getLsbD (w := 28 + 4) _ i = _
  rw [BitVec.getLsbD_append]

@[simp] theorem commandWord_ignored (g : BitVec 28) (o : BitVec 4) : (commandWord g o).extractLsb' 4 28 = g := by
  apply BitVec.eq_of_getLsbD_eq
  intro i hi
  have h : ¬ 4 + i < 4 := by omega
  simp only [BitVec.getLsbD_extractLsb', getLsbD_commandWord, hi, h]
  simp [hi]

@[simp] theorem commandWord_opcode (g : BitVec 28) (o : BitVec 4) : (commandWord g o).extractLsb' 0 4 = o := by
  apply BitVec.eq_of_getLsbD_eq
  intro i hi
  simp only [BitVec.getLsbD_extractLsb', getLsbD_commandWord, Nat.zero_add, hi]
  simp [hi]

/-- A word is its opcode and its ignored bits. -/
theorem commandWord_split (w : Word) : commandWord (w.extractLsb' 4 28) (w.extractLsb' 0 4) = w := by
  apply BitVec.eq_of_getLsbD_eq
  intro i hi
  simp only [getLsbD_commandWord, BitVec.getLsbD_extractLsb']
  split
  · simp [*]
  · have h1 : i - 4 < 28 := by omega
    have h2 : 4 + (i - 4) = i := by omega
    simp [h1, h2]

end Sys2Proof.Machine
end

