-- ==== Sys2Proof/Laws/Codec.lean ====
section
/-! SUPPORT. What the codec's functions can do: the CRC's running form, request lengths, opcodes, verdicts. -/

namespace Sys2Proof.Machine

@[simp] theorem crcFrom_nil (c : Half) : crcFrom c [] = c := rfl

@[simp] theorem crcFrom_cons (c : Half) (b : Byte) (bs : List Byte) :
    crcFrom c (b :: bs) = crcFrom (crcUpdate c b) bs := rfl

theorem crcFrom_append (c : Half) (as bs : List Byte) : crcFrom c (as ++ bs) = crcFrom (crcFrom c as) bs := by
  simp [crcFrom]

@[simp] theorem crc16_nil : crc16 [] = 0xFFFF#16 := rfl

@[simp] theorem crcTail_length (bs : List Byte) : (crcTail bs).length = 2 := rfl

@[simp] theorem withCrc_length (bs : List Byte) : (withCrc bs).length = bs.length + 2 := by simp [withCrc]

@[simp] theorem encCrc_length (a f : Byte) (r v : Half) : (encCrc a f r v).length = 8 := by simp [encCrc]

@[simp] theorem frame8_length (f : Frame8) : f.toList.length = 8 := rfl

@[simp] theorem asciiRequest_length (ctrl : Byte) : (asciiRequest ctrl).length = 16 := rfl

/-- The ASCII request is read back, whatever the control byte (30_encoding.md R101). -/
@[simp] theorem decodeAsciiRequest_asciiRequest (p : Params) :
    decodeAsciiRequest p (asciiRequest p.asciiCtrl) = .ok .reqAsciiRead := by
  simp [decodeAsciiRequest]

/-- A request has 8 bytes, the ASCII request 16 (30_encoding.md R103). -/
theorem requestFrame_length (p : Params) (op : TransOp) (a : Byte) (v : Half) :
    (requestFrame p op a v).length = if op = .asciiRead then 16 else 8 := by
  cases op <;> simp [requestFrame]

@[simp] theorem ofCode_code (op : TransOp) : TransOp.ofCode op.code = some op := by cases op <;> rfl

/-- An opcode names at most one transaction command. -/
theorem ofCode_eq_some {c : BitVec 4} {op : TransOp} (h : TransOp.ofCode c = some op) : c = op.code := by
  have := List.find?_some h
  simpa using (beq_iff_eq.mp this).symm

theorem responseLength_le (op : TransOp) : (responseLength op).toNat ≤ 9 := by cases op <;> decide

/-- Validation answers `ok`, `checksumMismatch` or `formatError`, nothing else. -/
theorem validate_cases (p : Params) (op : TransOp) (rx : List Byte) :
    validate p op rx = .ok ∨ validate p op rx = .checksumMismatch ∨ validate p op rx = .formatError := by
  cases op <;> simp only [validate] <;> (try split) <;> simp

/-- Decoding always accepts: with `ok`, or with `valueRejected` and DATA1 = 0 (41_frame_codec.md R171). -/
theorem decodeFields_cases (p : Params) (op : TransOp) (rx : List Byte) (sent : Byte) :
    (∃ a b, decodeFields p op rx sent = .accept .ok a b)
      ∨ ∃ a, decodeFields p op rx sent = .accept .valueRejected a 0 := by
  cases op <;> simp only [decodeFields] <;> (try split) <;> simp

/-- Everything a judged response can lead to (41_frame_codec.md R167 to R173, R187). -/
theorem judge_cases (p : Params) (op : TransOp) (rx : List Byte) (sent : Byte) :
    (∃ a b, judge p op rx sent = .accept .ok a b) ∨ (∃ a, judge p op rx sent = .accept .valueRejected a 0)
      ∨ judge p op rx sent = .reject .checksumMismatch ∨ judge p op rx sent = .reject .formatError := by
  unfold judge
  rcases validate_cases p op rx with h | h | h <;> rw [h]
  · rcases decodeFields_cases p op rx sent with h | h
    · exact .inl h
    · exact .inr (.inl h)
  · exact .inr (.inr (.inl rfl))
  · exact .inr (.inr (.inr rfl))

/-- A response that passed validation is decoded (41_frame_codec.md R173). -/
theorem judge_of_valid {p : Params} {op : TransOp} {rx : List Byte} {sent : Byte} (h : validate p op rx = .ok) :
    judge p op rx sent = decodeFields p op rx sent := by simp [judge, h]

end Sys2Proof.Machine
end

