-- ==== Sys2Proof/Laws/State.lean ====
section
/-! SUPPORT. One lemma for each field of the state and each named update, so that no proof unfolds a record
update. Fields an update leaves alone are unchanged. -/

namespace Sys2Proof.Machine

@[simp] theorem State.setIrq_regAddr (s : State) (b : BitVec 2) : (s.setIrq b).regAddr = s.regAddr := rfl
@[simp] theorem State.setIrq_regValue (s : State) (b : BitVec 2) : (s.setIrq b).regValue = s.regValue := rfl
@[simp] theorem State.setIrq_regMaxatt (s : State) (b : BitVec 2) : (s.setIrq b).regMaxatt = s.regMaxatt := rfl
@[simp] theorem State.setIrq_phase (s : State) (b : BitVec 2) : (s.setIrq b).phase = s.phase := rfl
@[simp] theorem State.setIrq_op (s : State) (b : BitVec 2) : (s.setIrq b).op = s.op := rfl
@[simp] theorem State.setIrq_addr (s : State) (b : BitVec 2) : (s.setIrq b).addr = s.addr := rfl
@[simp] theorem State.setIrq_value (s : State) (b : BitVec 2) : (s.setIrq b).value = s.value := rfl
@[simp] theorem State.setIrq_maxatt (s : State) (b : BitVec 2) : (s.setIrq b).maxatt = s.maxatt := rfl
@[simp] theorem State.setIrq_variant (s : State) (b : BitVec 2) : (s.setIrq b).variant = s.variant := rfl
@[simp] theorem State.setIrq_attempt (s : State) (b : BitVec 2) : (s.setIrq b).attempt = s.attempt := rfl
@[simp] theorem State.setIrq_cnt (s : State) (b : BitVec 2) : (s.setIrq b).cnt = s.cnt := rfl
@[simp] theorem State.setIrq_txidx (s : State) (b : BitVec 2) : (s.setIrq b).txidx = s.txidx := rfl
@[simp] theorem State.setIrq_txlen (s : State) (b : BitVec 2) : (s.setIrq b).txlen = s.txlen := rfl
@[simp] theorem State.setIrq_rxlen (s : State) (b : BitVec 2) : (s.setIrq b).rxlen = s.rxlen := rfl
@[simp] theorem State.setIrq_explen (s : State) (b : BitVec 2) : (s.setIrq b).explen = s.explen := rfl
@[simp] theorem State.setIrq_cause (s : State) (b : BitVec 2) : (s.setIrq b).cause = s.cause := rfl
@[simp] theorem State.setIrq_txbuf (s : State) (b : BitVec 2) : (s.setIrq b).txbuf = s.txbuf := rfl
@[simp] theorem State.setIrq_rxbuf (s : State) (b : BitVec 2) : (s.setIrq b).rxbuf = s.rxbuf := rfl
@[simp] theorem State.setIrq_crc (s : State) (b : BitVec 2) : (s.setIrq b).crc = s.crc := rfl
@[simp] theorem State.setIrq_de (s : State) (b : BitVec 2) : (s.setIrq b).de = s.de := rfl
@[simp] theorem State.setIrq_re (s : State) (b : BitVec 2) : (s.setIrq b).re = s.re := rfl
@[simp] theorem State.setIrq_baudSel (s : State) (b : BitVec 2) : (s.setIrq b).baudSel = s.baudSel := rfl
@[simp] theorem State.setIrq_done (s : State) (b : BitVec 2) : (s.setIrq b).done = s.done := rfl
@[simp] theorem State.setIrq_overrun (s : State) (b : BitVec 2) : (s.setIrq b).overrun = s.overrun := rfl
@[simp] theorem State.setIrq_code (s : State) (b : BitVec 2) : (s.setIrq b).code = s.code := rfl
@[simp] theorem State.setIrq_lastCause (s : State) (b : BitVec 2) : (s.setIrq b).lastCause = s.lastCause := rfl
@[simp] theorem State.setIrq_data0 (s : State) (b : BitVec 2) : (s.setIrq b).data0 = s.data0 := rfl
@[simp] theorem State.setIrq_data1 (s : State) (b : BitVec 2) : (s.setIrq b).data1 = s.data1 := rfl
@[simp] theorem State.setIrq_irqStatus (s : State) (b : BitVec 2) : (s.setIrq b).irqStatus = s.irqStatus ||| b := rfl
@[simp] theorem State.setIrq_irqEnable (s : State) (b : BitVec 2) : (s.setIrq b).irqEnable = s.irqEnable := rfl
@[simp] theorem State.setIrq_faillogCause (s : State) (b : BitVec 2) : (s.setIrq b).faillogCause = s.faillogCause := rfl
@[simp] theorem State.setIrq_faillogAttempt (s : State) (b : BitVec 2) : (s.setIrq b).faillogAttempt = s.faillogAttempt := rfl
@[simp] theorem State.setIrq_par (s : State) (b : BitVec 2) : (s.setIrq b).par = s.par := rfl
@[simp] theorem State.setIrq_inputs (s : State) (b : BitVec 2) : (s.setIrq b).inputs = s.inputs := rfl
@[simp] theorem State.setIrq_cycle (s : State) (b : BitVec 2) : (s.setIrq b).cycle = s.cycle := rfl
@[simp] theorem State.setIrq_out (s : State) (b : BitVec 2) : (s.setIrq b).out = s.out := rfl

@[simp] theorem State.ackIrq_regAddr (s : State) (b : BitVec 2) : (s.ackIrq b).regAddr = s.regAddr := rfl
@[simp] theorem State.ackIrq_regValue (s : State) (b : BitVec 2) : (s.ackIrq b).regValue = s.regValue := rfl
@[simp] theorem State.ackIrq_regMaxatt (s : State) (b : BitVec 2) : (s.ackIrq b).regMaxatt = s.regMaxatt := rfl
@[simp] theorem State.ackIrq_phase (s : State) (b : BitVec 2) : (s.ackIrq b).phase = s.phase := rfl
@[simp] theorem State.ackIrq_op (s : State) (b : BitVec 2) : (s.ackIrq b).op = s.op := rfl
@[simp] theorem State.ackIrq_addr (s : State) (b : BitVec 2) : (s.ackIrq b).addr = s.addr := rfl
@[simp] theorem State.ackIrq_value (s : State) (b : BitVec 2) : (s.ackIrq b).value = s.value := rfl
@[simp] theorem State.ackIrq_maxatt (s : State) (b : BitVec 2) : (s.ackIrq b).maxatt = s.maxatt := rfl
@[simp] theorem State.ackIrq_variant (s : State) (b : BitVec 2) : (s.ackIrq b).variant = s.variant := rfl
@[simp] theorem State.ackIrq_attempt (s : State) (b : BitVec 2) : (s.ackIrq b).attempt = s.attempt := rfl
@[simp] theorem State.ackIrq_cnt (s : State) (b : BitVec 2) : (s.ackIrq b).cnt = s.cnt := rfl
@[simp] theorem State.ackIrq_txidx (s : State) (b : BitVec 2) : (s.ackIrq b).txidx = s.txidx := rfl
@[simp] theorem State.ackIrq_txlen (s : State) (b : BitVec 2) : (s.ackIrq b).txlen = s.txlen := rfl
@[simp] theorem State.ackIrq_rxlen (s : State) (b : BitVec 2) : (s.ackIrq b).rxlen = s.rxlen := rfl
@[simp] theorem State.ackIrq_explen (s : State) (b : BitVec 2) : (s.ackIrq b).explen = s.explen := rfl
@[simp] theorem State.ackIrq_cause (s : State) (b : BitVec 2) : (s.ackIrq b).cause = s.cause := rfl
@[simp] theorem State.ackIrq_txbuf (s : State) (b : BitVec 2) : (s.ackIrq b).txbuf = s.txbuf := rfl
@[simp] theorem State.ackIrq_rxbuf (s : State) (b : BitVec 2) : (s.ackIrq b).rxbuf = s.rxbuf := rfl
@[simp] theorem State.ackIrq_crc (s : State) (b : BitVec 2) : (s.ackIrq b).crc = s.crc := rfl
@[simp] theorem State.ackIrq_de (s : State) (b : BitVec 2) : (s.ackIrq b).de = s.de := rfl
@[simp] theorem State.ackIrq_re (s : State) (b : BitVec 2) : (s.ackIrq b).re = s.re := rfl
@[simp] theorem State.ackIrq_baudSel (s : State) (b : BitVec 2) : (s.ackIrq b).baudSel = s.baudSel := rfl
@[simp] theorem State.ackIrq_done (s : State) (b : BitVec 2) : (s.ackIrq b).done = s.done := rfl
@[simp] theorem State.ackIrq_overrun (s : State) (b : BitVec 2) : (s.ackIrq b).overrun = s.overrun := rfl
@[simp] theorem State.ackIrq_code (s : State) (b : BitVec 2) : (s.ackIrq b).code = s.code := rfl
@[simp] theorem State.ackIrq_lastCause (s : State) (b : BitVec 2) : (s.ackIrq b).lastCause = s.lastCause := rfl
@[simp] theorem State.ackIrq_data0 (s : State) (b : BitVec 2) : (s.ackIrq b).data0 = s.data0 := rfl
@[simp] theorem State.ackIrq_data1 (s : State) (b : BitVec 2) : (s.ackIrq b).data1 = s.data1 := rfl
@[simp] theorem State.ackIrq_irqStatus (s : State) (b : BitVec 2) : (s.ackIrq b).irqStatus = s.irqStatus &&& ~~~b := rfl
@[simp] theorem State.ackIrq_irqEnable (s : State) (b : BitVec 2) : (s.ackIrq b).irqEnable = s.irqEnable := rfl
@[simp] theorem State.ackIrq_faillogCause (s : State) (b : BitVec 2) : (s.ackIrq b).faillogCause = s.faillogCause := rfl
@[simp] theorem State.ackIrq_faillogAttempt (s : State) (b : BitVec 2) : (s.ackIrq b).faillogAttempt = s.faillogAttempt := rfl
@[simp] theorem State.ackIrq_par (s : State) (b : BitVec 2) : (s.ackIrq b).par = s.par := rfl
@[simp] theorem State.ackIrq_inputs (s : State) (b : BitVec 2) : (s.ackIrq b).inputs = s.inputs := rfl
@[simp] theorem State.ackIrq_cycle (s : State) (b : BitVec 2) : (s.ackIrq b).cycle = s.cycle := rfl
@[simp] theorem State.ackIrq_out (s : State) (b : BitVec 2) : (s.ackIrq b).out = s.out := rfl

@[simp] theorem State.transmitMode_regAddr (s : State) : (s.transmitMode).regAddr = s.regAddr := rfl
@[simp] theorem State.transmitMode_regValue (s : State) : (s.transmitMode).regValue = s.regValue := rfl
@[simp] theorem State.transmitMode_regMaxatt (s : State) : (s.transmitMode).regMaxatt = s.regMaxatt := rfl
@[simp] theorem State.transmitMode_phase (s : State) : (s.transmitMode).phase = s.phase := rfl
@[simp] theorem State.transmitMode_op (s : State) : (s.transmitMode).op = s.op := rfl
@[simp] theorem State.transmitMode_addr (s : State) : (s.transmitMode).addr = s.addr := rfl
@[simp] theorem State.transmitMode_value (s : State) : (s.transmitMode).value = s.value := rfl
@[simp] theorem State.transmitMode_maxatt (s : State) : (s.transmitMode).maxatt = s.maxatt := rfl
@[simp] theorem State.transmitMode_variant (s : State) : (s.transmitMode).variant = s.variant := rfl
@[simp] theorem State.transmitMode_attempt (s : State) : (s.transmitMode).attempt = s.attempt := rfl
@[simp] theorem State.transmitMode_cnt (s : State) : (s.transmitMode).cnt = s.cnt := rfl
@[simp] theorem State.transmitMode_txidx (s : State) : (s.transmitMode).txidx = s.txidx := rfl
@[simp] theorem State.transmitMode_txlen (s : State) : (s.transmitMode).txlen = s.txlen := rfl
@[simp] theorem State.transmitMode_rxlen (s : State) : (s.transmitMode).rxlen = s.rxlen := rfl
@[simp] theorem State.transmitMode_explen (s : State) : (s.transmitMode).explen = s.explen := rfl
@[simp] theorem State.transmitMode_cause (s : State) : (s.transmitMode).cause = s.cause := rfl
@[simp] theorem State.transmitMode_txbuf (s : State) : (s.transmitMode).txbuf = s.txbuf := rfl
@[simp] theorem State.transmitMode_rxbuf (s : State) : (s.transmitMode).rxbuf = s.rxbuf := rfl
@[simp] theorem State.transmitMode_crc (s : State) : (s.transmitMode).crc = s.crc := rfl
@[simp] theorem State.transmitMode_de (s : State) : (s.transmitMode).de = true := rfl
@[simp] theorem State.transmitMode_re (s : State) : (s.transmitMode).re = false := rfl
@[simp] theorem State.transmitMode_baudSel (s : State) : (s.transmitMode).baudSel = s.baudSel := rfl
@[simp] theorem State.transmitMode_done (s : State) : (s.transmitMode).done = s.done := rfl
@[simp] theorem State.transmitMode_overrun (s : State) : (s.transmitMode).overrun = s.overrun := rfl
@[simp] theorem State.transmitMode_code (s : State) : (s.transmitMode).code = s.code := rfl
@[simp] theorem State.transmitMode_lastCause (s : State) : (s.transmitMode).lastCause = s.lastCause := rfl
@[simp] theorem State.transmitMode_data0 (s : State) : (s.transmitMode).data0 = s.data0 := rfl
@[simp] theorem State.transmitMode_data1 (s : State) : (s.transmitMode).data1 = s.data1 := rfl
@[simp] theorem State.transmitMode_irqStatus (s : State) : (s.transmitMode).irqStatus = s.irqStatus := rfl
@[simp] theorem State.transmitMode_irqEnable (s : State) : (s.transmitMode).irqEnable = s.irqEnable := rfl
@[simp] theorem State.transmitMode_faillogCause (s : State) : (s.transmitMode).faillogCause = s.faillogCause := rfl
@[simp] theorem State.transmitMode_faillogAttempt (s : State) : (s.transmitMode).faillogAttempt = s.faillogAttempt := rfl
@[simp] theorem State.transmitMode_par (s : State) : (s.transmitMode).par = s.par := rfl
@[simp] theorem State.transmitMode_inputs (s : State) : (s.transmitMode).inputs = s.inputs := rfl
@[simp] theorem State.transmitMode_cycle (s : State) : (s.transmitMode).cycle = s.cycle := rfl
@[simp] theorem State.transmitMode_out (s : State) : (s.transmitMode).out = s.out := rfl

@[simp] theorem State.receiveMode_regAddr (s : State) : (s.receiveMode).regAddr = s.regAddr := rfl
@[simp] theorem State.receiveMode_regValue (s : State) : (s.receiveMode).regValue = s.regValue := rfl
@[simp] theorem State.receiveMode_regMaxatt (s : State) : (s.receiveMode).regMaxatt = s.regMaxatt := rfl
@[simp] theorem State.receiveMode_phase (s : State) : (s.receiveMode).phase = s.phase := rfl
@[simp] theorem State.receiveMode_op (s : State) : (s.receiveMode).op = s.op := rfl
@[simp] theorem State.receiveMode_addr (s : State) : (s.receiveMode).addr = s.addr := rfl
@[simp] theorem State.receiveMode_value (s : State) : (s.receiveMode).value = s.value := rfl
@[simp] theorem State.receiveMode_maxatt (s : State) : (s.receiveMode).maxatt = s.maxatt := rfl
@[simp] theorem State.receiveMode_variant (s : State) : (s.receiveMode).variant = s.variant := rfl
@[simp] theorem State.receiveMode_attempt (s : State) : (s.receiveMode).attempt = s.attempt := rfl
@[simp] theorem State.receiveMode_cnt (s : State) : (s.receiveMode).cnt = s.cnt := rfl
@[simp] theorem State.receiveMode_txidx (s : State) : (s.receiveMode).txidx = s.txidx := rfl
@[simp] theorem State.receiveMode_txlen (s : State) : (s.receiveMode).txlen = s.txlen := rfl
@[simp] theorem State.receiveMode_rxlen (s : State) : (s.receiveMode).rxlen = s.rxlen := rfl
@[simp] theorem State.receiveMode_explen (s : State) : (s.receiveMode).explen = s.explen := rfl
@[simp] theorem State.receiveMode_cause (s : State) : (s.receiveMode).cause = s.cause := rfl
@[simp] theorem State.receiveMode_txbuf (s : State) : (s.receiveMode).txbuf = s.txbuf := rfl
@[simp] theorem State.receiveMode_rxbuf (s : State) : (s.receiveMode).rxbuf = s.rxbuf := rfl
@[simp] theorem State.receiveMode_crc (s : State) : (s.receiveMode).crc = s.crc := rfl
@[simp] theorem State.receiveMode_de (s : State) : (s.receiveMode).de = false := rfl
@[simp] theorem State.receiveMode_re (s : State) : (s.receiveMode).re = true := rfl
@[simp] theorem State.receiveMode_baudSel (s : State) : (s.receiveMode).baudSel = s.baudSel := rfl
@[simp] theorem State.receiveMode_done (s : State) : (s.receiveMode).done = s.done := rfl
@[simp] theorem State.receiveMode_overrun (s : State) : (s.receiveMode).overrun = s.overrun := rfl
@[simp] theorem State.receiveMode_code (s : State) : (s.receiveMode).code = s.code := rfl
@[simp] theorem State.receiveMode_lastCause (s : State) : (s.receiveMode).lastCause = s.lastCause := rfl
@[simp] theorem State.receiveMode_data0 (s : State) : (s.receiveMode).data0 = s.data0 := rfl
@[simp] theorem State.receiveMode_data1 (s : State) : (s.receiveMode).data1 = s.data1 := rfl
@[simp] theorem State.receiveMode_irqStatus (s : State) : (s.receiveMode).irqStatus = s.irqStatus := rfl
@[simp] theorem State.receiveMode_irqEnable (s : State) : (s.receiveMode).irqEnable = s.irqEnable := rfl
@[simp] theorem State.receiveMode_faillogCause (s : State) : (s.receiveMode).faillogCause = s.faillogCause := rfl
@[simp] theorem State.receiveMode_faillogAttempt (s : State) : (s.receiveMode).faillogAttempt = s.faillogAttempt := rfl
@[simp] theorem State.receiveMode_par (s : State) : (s.receiveMode).par = s.par := rfl
@[simp] theorem State.receiveMode_inputs (s : State) : (s.receiveMode).inputs = s.inputs := rfl
@[simp] theorem State.receiveMode_cycle (s : State) : (s.receiveMode).cycle = s.cycle := rfl
@[simp] theorem State.receiveMode_out (s : State) : (s.receiveMode).out = s.out := rfl

@[simp] theorem State.finish_regAddr (s : State) (c l : Code) (a b : Word) : (s.finish c l a b).regAddr = s.regAddr := rfl
@[simp] theorem State.finish_regValue (s : State) (c l : Code) (a b : Word) : (s.finish c l a b).regValue = s.regValue := rfl
@[simp] theorem State.finish_regMaxatt (s : State) (c l : Code) (a b : Word) : (s.finish c l a b).regMaxatt = s.regMaxatt := rfl
@[simp] theorem State.finish_phase (s : State) (c l : Code) (a b : Word) : (s.finish c l a b).phase = Phase.idle := rfl
@[simp] theorem State.finish_op (s : State) (c l : Code) (a b : Word) : (s.finish c l a b).op = s.op := rfl
@[simp] theorem State.finish_addr (s : State) (c l : Code) (a b : Word) : (s.finish c l a b).addr = s.addr := rfl
@[simp] theorem State.finish_value (s : State) (c l : Code) (a b : Word) : (s.finish c l a b).value = s.value := rfl
@[simp] theorem State.finish_maxatt (s : State) (c l : Code) (a b : Word) : (s.finish c l a b).maxatt = s.maxatt := rfl
@[simp] theorem State.finish_variant (s : State) (c l : Code) (a b : Word) : (s.finish c l a b).variant = s.variant := rfl
@[simp] theorem State.finish_attempt (s : State) (c l : Code) (a b : Word) : (s.finish c l a b).attempt = s.attempt := rfl
@[simp] theorem State.finish_cnt (s : State) (c l : Code) (a b : Word) : (s.finish c l a b).cnt = s.cnt := rfl
@[simp] theorem State.finish_txidx (s : State) (c l : Code) (a b : Word) : (s.finish c l a b).txidx = s.txidx := rfl
@[simp] theorem State.finish_txlen (s : State) (c l : Code) (a b : Word) : (s.finish c l a b).txlen = s.txlen := rfl
@[simp] theorem State.finish_rxlen (s : State) (c l : Code) (a b : Word) : (s.finish c l a b).rxlen = s.rxlen := rfl
@[simp] theorem State.finish_explen (s : State) (c l : Code) (a b : Word) : (s.finish c l a b).explen = s.explen := rfl
@[simp] theorem State.finish_cause (s : State) (c l : Code) (a b : Word) : (s.finish c l a b).cause = s.cause := rfl
@[simp] theorem State.finish_txbuf (s : State) (c l : Code) (a b : Word) : (s.finish c l a b).txbuf = s.txbuf := rfl
@[simp] theorem State.finish_rxbuf (s : State) (c l : Code) (a b : Word) : (s.finish c l a b).rxbuf = s.rxbuf := rfl
@[simp] theorem State.finish_crc (s : State) (c l : Code) (a b : Word) : (s.finish c l a b).crc = s.crc := rfl
@[simp] theorem State.finish_de (s : State) (c l : Code) (a b : Word) : (s.finish c l a b).de = s.de := rfl
@[simp] theorem State.finish_re (s : State) (c l : Code) (a b : Word) : (s.finish c l a b).re = s.re := rfl
@[simp] theorem State.finish_baudSel (s : State) (c l : Code) (a b : Word) : (s.finish c l a b).baudSel = s.baudSel := rfl
@[simp] theorem State.finish_done (s : State) (c l : Code) (a b : Word) : (s.finish c l a b).done = true := rfl
@[simp] theorem State.finish_overrun (s : State) (c l : Code) (a b : Word) : (s.finish c l a b).overrun = s.overrun := rfl
@[simp] theorem State.finish_code (s : State) (c l : Code) (a b : Word) : (s.finish c l a b).code = c := rfl
@[simp] theorem State.finish_lastCause (s : State) (c l : Code) (a b : Word) : (s.finish c l a b).lastCause = l := rfl
@[simp] theorem State.finish_data0 (s : State) (c l : Code) (a b : Word) : (s.finish c l a b).data0 = a := rfl
@[simp] theorem State.finish_data1 (s : State) (c l : Code) (a b : Word) : (s.finish c l a b).data1 = b := rfl
@[simp] theorem State.finish_irqStatus (s : State) (c l : Code) (a b : Word) : (s.finish c l a b).irqStatus = s.irqStatus ||| doneIrq := rfl
@[simp] theorem State.finish_irqEnable (s : State) (c l : Code) (a b : Word) : (s.finish c l a b).irqEnable = s.irqEnable := rfl
@[simp] theorem State.finish_faillogCause (s : State) (c l : Code) (a b : Word) : (s.finish c l a b).faillogCause = s.faillogCause := rfl
@[simp] theorem State.finish_faillogAttempt (s : State) (c l : Code) (a b : Word) : (s.finish c l a b).faillogAttempt = s.faillogAttempt := rfl
@[simp] theorem State.finish_par (s : State) (c l : Code) (a b : Word) : (s.finish c l a b).par = s.par := rfl
@[simp] theorem State.finish_inputs (s : State) (c l : Code) (a b : Word) : (s.finish c l a b).inputs = s.inputs := rfl
@[simp] theorem State.finish_cycle (s : State) (c l : Code) (a b : Word) : (s.finish c l a b).cycle = s.cycle := rfl
@[simp] theorem State.finish_out (s : State) (c l : Code) (a b : Word) : (s.finish c l a b).out = s.out := rfl

@[simp] theorem State.report_regAddr (s : State) (c : Code) (k : BitVec 8) : (s.report c k).regAddr = s.regAddr := rfl
@[simp] theorem State.report_regValue (s : State) (c : Code) (k : BitVec 8) : (s.report c k).regValue = s.regValue := rfl
@[simp] theorem State.report_regMaxatt (s : State) (c : Code) (k : BitVec 8) : (s.report c k).regMaxatt = s.regMaxatt := rfl
@[simp] theorem State.report_phase (s : State) (c : Code) (k : BitVec 8) : (s.report c k).phase = s.phase := rfl
@[simp] theorem State.report_op (s : State) (c : Code) (k : BitVec 8) : (s.report c k).op = s.op := rfl
@[simp] theorem State.report_addr (s : State) (c : Code) (k : BitVec 8) : (s.report c k).addr = s.addr := rfl
@[simp] theorem State.report_value (s : State) (c : Code) (k : BitVec 8) : (s.report c k).value = s.value := rfl
@[simp] theorem State.report_maxatt (s : State) (c : Code) (k : BitVec 8) : (s.report c k).maxatt = s.maxatt := rfl
@[simp] theorem State.report_variant (s : State) (c : Code) (k : BitVec 8) : (s.report c k).variant = s.variant := rfl
@[simp] theorem State.report_attempt (s : State) (c : Code) (k : BitVec 8) : (s.report c k).attempt = s.attempt := rfl
@[simp] theorem State.report_cnt (s : State) (c : Code) (k : BitVec 8) : (s.report c k).cnt = s.cnt := rfl
@[simp] theorem State.report_txidx (s : State) (c : Code) (k : BitVec 8) : (s.report c k).txidx = s.txidx := rfl
@[simp] theorem State.report_txlen (s : State) (c : Code) (k : BitVec 8) : (s.report c k).txlen = s.txlen := rfl
@[simp] theorem State.report_rxlen (s : State) (c : Code) (k : BitVec 8) : (s.report c k).rxlen = s.rxlen := rfl
@[simp] theorem State.report_explen (s : State) (c : Code) (k : BitVec 8) : (s.report c k).explen = s.explen := rfl
@[simp] theorem State.report_cause (s : State) (c : Code) (k : BitVec 8) : (s.report c k).cause = s.cause := rfl
@[simp] theorem State.report_txbuf (s : State) (c : Code) (k : BitVec 8) : (s.report c k).txbuf = s.txbuf := rfl
@[simp] theorem State.report_rxbuf (s : State) (c : Code) (k : BitVec 8) : (s.report c k).rxbuf = s.rxbuf := rfl
@[simp] theorem State.report_crc (s : State) (c : Code) (k : BitVec 8) : (s.report c k).crc = s.crc := rfl
@[simp] theorem State.report_de (s : State) (c : Code) (k : BitVec 8) : (s.report c k).de = s.de := rfl
@[simp] theorem State.report_re (s : State) (c : Code) (k : BitVec 8) : (s.report c k).re = s.re := rfl
@[simp] theorem State.report_baudSel (s : State) (c : Code) (k : BitVec 8) : (s.report c k).baudSel = s.baudSel := rfl
@[simp] theorem State.report_done (s : State) (c : Code) (k : BitVec 8) : (s.report c k).done = s.done := rfl
@[simp] theorem State.report_overrun (s : State) (c : Code) (k : BitVec 8) : (s.report c k).overrun = s.overrun := rfl
@[simp] theorem State.report_code (s : State) (c : Code) (k : BitVec 8) : (s.report c k).code = s.code := rfl
@[simp] theorem State.report_lastCause (s : State) (c : Code) (k : BitVec 8) : (s.report c k).lastCause = s.lastCause := rfl
@[simp] theorem State.report_data0 (s : State) (c : Code) (k : BitVec 8) : (s.report c k).data0 = s.data0 := rfl
@[simp] theorem State.report_data1 (s : State) (c : Code) (k : BitVec 8) : (s.report c k).data1 = s.data1 := rfl
@[simp] theorem State.report_irqStatus (s : State) (c : Code) (k : BitVec 8) : (s.report c k).irqStatus = s.irqStatus ||| attfailIrq := rfl
@[simp] theorem State.report_irqEnable (s : State) (c : Code) (k : BitVec 8) : (s.report c k).irqEnable = s.irqEnable := rfl
@[simp] theorem State.report_faillogCause (s : State) (c : Code) (k : BitVec 8) : (s.report c k).faillogCause = c := rfl
@[simp] theorem State.report_faillogAttempt (s : State) (c : Code) (k : BitVec 8) : (s.report c k).faillogAttempt = k := rfl
@[simp] theorem State.report_par (s : State) (c : Code) (k : BitVec 8) : (s.report c k).par = s.par := rfl
@[simp] theorem State.report_inputs (s : State) (c : Code) (k : BitVec 8) : (s.report c k).inputs = s.inputs := rfl
@[simp] theorem State.report_cycle (s : State) (c : Code) (k : BitVec 8) : (s.report c k).cycle = s.cycle := rfl
@[simp] theorem State.report_out (s : State) (c : Code) (k : BitVec 8) : (s.report c k).out = s.out := rfl

@[simp] theorem State.loadRequest_regAddr (s : State) (bs : List Byte) : (s.loadRequest bs).regAddr = s.regAddr := rfl
@[simp] theorem State.loadRequest_regValue (s : State) (bs : List Byte) : (s.loadRequest bs).regValue = s.regValue := rfl
@[simp] theorem State.loadRequest_regMaxatt (s : State) (bs : List Byte) : (s.loadRequest bs).regMaxatt = s.regMaxatt := rfl
@[simp] theorem State.loadRequest_phase (s : State) (bs : List Byte) : (s.loadRequest bs).phase = s.phase := rfl
@[simp] theorem State.loadRequest_op (s : State) (bs : List Byte) : (s.loadRequest bs).op = s.op := rfl
@[simp] theorem State.loadRequest_addr (s : State) (bs : List Byte) : (s.loadRequest bs).addr = s.addr := rfl
@[simp] theorem State.loadRequest_value (s : State) (bs : List Byte) : (s.loadRequest bs).value = s.value := rfl
@[simp] theorem State.loadRequest_maxatt (s : State) (bs : List Byte) : (s.loadRequest bs).maxatt = s.maxatt := rfl
@[simp] theorem State.loadRequest_variant (s : State) (bs : List Byte) : (s.loadRequest bs).variant = s.variant := rfl
@[simp] theorem State.loadRequest_attempt (s : State) (bs : List Byte) : (s.loadRequest bs).attempt = s.attempt := rfl
@[simp] theorem State.loadRequest_cnt (s : State) (bs : List Byte) : (s.loadRequest bs).cnt = s.cnt := rfl
@[simp] theorem State.loadRequest_txidx (s : State) (bs : List Byte) : (s.loadRequest bs).txidx = s.txidx := rfl
@[simp] theorem State.loadRequest_txlen (s : State) (bs : List Byte) : (s.loadRequest bs).txlen = BitVec.ofNat 5 bs.length := rfl
@[simp] theorem State.loadRequest_rxlen (s : State) (bs : List Byte) : (s.loadRequest bs).rxlen = s.rxlen := rfl
@[simp] theorem State.loadRequest_explen (s : State) (bs : List Byte) : (s.loadRequest bs).explen = s.explen := rfl
@[simp] theorem State.loadRequest_cause (s : State) (bs : List Byte) : (s.loadRequest bs).cause = s.cause := rfl
@[simp] theorem State.loadRequest_txbuf (s : State) (bs : List Byte) : (s.loadRequest bs).txbuf = loadPrefix bs s.txbuf := rfl
@[simp] theorem State.loadRequest_rxbuf (s : State) (bs : List Byte) : (s.loadRequest bs).rxbuf = s.rxbuf := rfl
@[simp] theorem State.loadRequest_crc (s : State) (bs : List Byte) : (s.loadRequest bs).crc = s.crc := rfl
@[simp] theorem State.loadRequest_de (s : State) (bs : List Byte) : (s.loadRequest bs).de = s.de := rfl
@[simp] theorem State.loadRequest_re (s : State) (bs : List Byte) : (s.loadRequest bs).re = s.re := rfl
@[simp] theorem State.loadRequest_baudSel (s : State) (bs : List Byte) : (s.loadRequest bs).baudSel = s.baudSel := rfl
@[simp] theorem State.loadRequest_done (s : State) (bs : List Byte) : (s.loadRequest bs).done = s.done := rfl
@[simp] theorem State.loadRequest_overrun (s : State) (bs : List Byte) : (s.loadRequest bs).overrun = s.overrun := rfl
@[simp] theorem State.loadRequest_code (s : State) (bs : List Byte) : (s.loadRequest bs).code = s.code := rfl
@[simp] theorem State.loadRequest_lastCause (s : State) (bs : List Byte) : (s.loadRequest bs).lastCause = s.lastCause := rfl
@[simp] theorem State.loadRequest_data0 (s : State) (bs : List Byte) : (s.loadRequest bs).data0 = s.data0 := rfl
@[simp] theorem State.loadRequest_data1 (s : State) (bs : List Byte) : (s.loadRequest bs).data1 = s.data1 := rfl
@[simp] theorem State.loadRequest_irqStatus (s : State) (bs : List Byte) : (s.loadRequest bs).irqStatus = s.irqStatus := rfl
@[simp] theorem State.loadRequest_irqEnable (s : State) (bs : List Byte) : (s.loadRequest bs).irqEnable = s.irqEnable := rfl
@[simp] theorem State.loadRequest_faillogCause (s : State) (bs : List Byte) : (s.loadRequest bs).faillogCause = s.faillogCause := rfl
@[simp] theorem State.loadRequest_faillogAttempt (s : State) (bs : List Byte) : (s.loadRequest bs).faillogAttempt = s.faillogAttempt := rfl
@[simp] theorem State.loadRequest_par (s : State) (bs : List Byte) : (s.loadRequest bs).par = s.par := rfl
@[simp] theorem State.loadRequest_inputs (s : State) (bs : List Byte) : (s.loadRequest bs).inputs = s.inputs := rfl
@[simp] theorem State.loadRequest_cycle (s : State) (bs : List Byte) : (s.loadRequest bs).cycle = s.cycle := rfl
@[simp] theorem State.loadRequest_out (s : State) (bs : List Byte) : (s.loadRequest bs).out = s.out := rfl

@[simp] theorem State.loadResponse_regAddr (s : State) (bs : List Byte) : (s.loadResponse bs).regAddr = s.regAddr := rfl
@[simp] theorem State.loadResponse_regValue (s : State) (bs : List Byte) : (s.loadResponse bs).regValue = s.regValue := rfl
@[simp] theorem State.loadResponse_regMaxatt (s : State) (bs : List Byte) : (s.loadResponse bs).regMaxatt = s.regMaxatt := rfl
@[simp] theorem State.loadResponse_phase (s : State) (bs : List Byte) : (s.loadResponse bs).phase = s.phase := rfl
@[simp] theorem State.loadResponse_op (s : State) (bs : List Byte) : (s.loadResponse bs).op = s.op := rfl
@[simp] theorem State.loadResponse_addr (s : State) (bs : List Byte) : (s.loadResponse bs).addr = s.addr := rfl
@[simp] theorem State.loadResponse_value (s : State) (bs : List Byte) : (s.loadResponse bs).value = s.value := rfl
@[simp] theorem State.loadResponse_maxatt (s : State) (bs : List Byte) : (s.loadResponse bs).maxatt = s.maxatt := rfl
@[simp] theorem State.loadResponse_variant (s : State) (bs : List Byte) : (s.loadResponse bs).variant = s.variant := rfl
@[simp] theorem State.loadResponse_attempt (s : State) (bs : List Byte) : (s.loadResponse bs).attempt = s.attempt := rfl
@[simp] theorem State.loadResponse_cnt (s : State) (bs : List Byte) : (s.loadResponse bs).cnt = s.cnt := rfl
@[simp] theorem State.loadResponse_txidx (s : State) (bs : List Byte) : (s.loadResponse bs).txidx = s.txidx := rfl
@[simp] theorem State.loadResponse_txlen (s : State) (bs : List Byte) : (s.loadResponse bs).txlen = s.txlen := rfl
@[simp] theorem State.loadResponse_rxlen (s : State) (bs : List Byte) : (s.loadResponse bs).rxlen = BitVec.ofNat 8 bs.length := rfl
@[simp] theorem State.loadResponse_explen (s : State) (bs : List Byte) : (s.loadResponse bs).explen = s.explen := rfl
@[simp] theorem State.loadResponse_cause (s : State) (bs : List Byte) : (s.loadResponse bs).cause = s.cause := rfl
@[simp] theorem State.loadResponse_txbuf (s : State) (bs : List Byte) : (s.loadResponse bs).txbuf = s.txbuf := rfl
@[simp] theorem State.loadResponse_rxbuf (s : State) (bs : List Byte) : (s.loadResponse bs).rxbuf = loadPrefix bs s.rxbuf := rfl
@[simp] theorem State.loadResponse_crc (s : State) (bs : List Byte) : (s.loadResponse bs).crc = s.crc := rfl
@[simp] theorem State.loadResponse_de (s : State) (bs : List Byte) : (s.loadResponse bs).de = s.de := rfl
@[simp] theorem State.loadResponse_re (s : State) (bs : List Byte) : (s.loadResponse bs).re = s.re := rfl
@[simp] theorem State.loadResponse_baudSel (s : State) (bs : List Byte) : (s.loadResponse bs).baudSel = s.baudSel := rfl
@[simp] theorem State.loadResponse_done (s : State) (bs : List Byte) : (s.loadResponse bs).done = s.done := rfl
@[simp] theorem State.loadResponse_overrun (s : State) (bs : List Byte) : (s.loadResponse bs).overrun = s.overrun := rfl
@[simp] theorem State.loadResponse_code (s : State) (bs : List Byte) : (s.loadResponse bs).code = s.code := rfl
@[simp] theorem State.loadResponse_lastCause (s : State) (bs : List Byte) : (s.loadResponse bs).lastCause = s.lastCause := rfl
@[simp] theorem State.loadResponse_data0 (s : State) (bs : List Byte) : (s.loadResponse bs).data0 = s.data0 := rfl
@[simp] theorem State.loadResponse_data1 (s : State) (bs : List Byte) : (s.loadResponse bs).data1 = s.data1 := rfl
@[simp] theorem State.loadResponse_irqStatus (s : State) (bs : List Byte) : (s.loadResponse bs).irqStatus = s.irqStatus := rfl
@[simp] theorem State.loadResponse_irqEnable (s : State) (bs : List Byte) : (s.loadResponse bs).irqEnable = s.irqEnable := rfl
@[simp] theorem State.loadResponse_faillogCause (s : State) (bs : List Byte) : (s.loadResponse bs).faillogCause = s.faillogCause := rfl
@[simp] theorem State.loadResponse_faillogAttempt (s : State) (bs : List Byte) : (s.loadResponse bs).faillogAttempt = s.faillogAttempt := rfl
@[simp] theorem State.loadResponse_par (s : State) (bs : List Byte) : (s.loadResponse bs).par = s.par := rfl
@[simp] theorem State.loadResponse_inputs (s : State) (bs : List Byte) : (s.loadResponse bs).inputs = s.inputs := rfl
@[simp] theorem State.loadResponse_cycle (s : State) (bs : List Byte) : (s.loadResponse bs).cycle = s.cycle := rfl
@[simp] theorem State.loadResponse_out (s : State) (bs : List Byte) : (s.loadResponse bs).out = s.out := rfl

@[simp] theorem State.acceptCommon_regAddr (s : State) (o : BitVec 4) : (s.acceptCommon o).regAddr = s.regAddr := rfl
@[simp] theorem State.acceptCommon_regValue (s : State) (o : BitVec 4) : (s.acceptCommon o).regValue = s.regValue := rfl
@[simp] theorem State.acceptCommon_regMaxatt (s : State) (o : BitVec 4) : (s.acceptCommon o).regMaxatt = s.regMaxatt := rfl
@[simp] theorem State.acceptCommon_phase (s : State) (o : BitVec 4) : (s.acceptCommon o).phase = s.phase := rfl
@[simp] theorem State.acceptCommon_op (s : State) (o : BitVec 4) : (s.acceptCommon o).op = o := rfl
@[simp] theorem State.acceptCommon_addr (s : State) (o : BitVec 4) : (s.acceptCommon o).addr = s.regAddr := rfl
@[simp] theorem State.acceptCommon_value (s : State) (o : BitVec 4) : (s.acceptCommon o).value = s.regValue := rfl
@[simp] theorem State.acceptCommon_maxatt (s : State) (o : BitVec 4) : (s.acceptCommon o).maxatt = s.regMaxatt := rfl
@[simp] theorem State.acceptCommon_variant (s : State) (o : BitVec 4) : (s.acceptCommon o).variant = s.variant := rfl
@[simp] theorem State.acceptCommon_attempt (s : State) (o : BitVec 4) : (s.acceptCommon o).attempt = 0 := rfl
@[simp] theorem State.acceptCommon_cnt (s : State) (o : BitVec 4) : (s.acceptCommon o).cnt = s.cnt := rfl
@[simp] theorem State.acceptCommon_txidx (s : State) (o : BitVec 4) : (s.acceptCommon o).txidx = s.txidx := rfl
@[simp] theorem State.acceptCommon_txlen (s : State) (o : BitVec 4) : (s.acceptCommon o).txlen = s.txlen := rfl
@[simp] theorem State.acceptCommon_rxlen (s : State) (o : BitVec 4) : (s.acceptCommon o).rxlen = 0 := rfl
@[simp] theorem State.acceptCommon_explen (s : State) (o : BitVec 4) : (s.acceptCommon o).explen = s.explen := rfl
@[simp] theorem State.acceptCommon_cause (s : State) (o : BitVec 4) : (s.acceptCommon o).cause = s.cause := rfl
@[simp] theorem State.acceptCommon_txbuf (s : State) (o : BitVec 4) : (s.acceptCommon o).txbuf = s.txbuf := rfl
@[simp] theorem State.acceptCommon_rxbuf (s : State) (o : BitVec 4) : (s.acceptCommon o).rxbuf = s.rxbuf := rfl
@[simp] theorem State.acceptCommon_crc (s : State) (o : BitVec 4) : (s.acceptCommon o).crc = s.crc := rfl
@[simp] theorem State.acceptCommon_de (s : State) (o : BitVec 4) : (s.acceptCommon o).de = s.de := rfl
@[simp] theorem State.acceptCommon_re (s : State) (o : BitVec 4) : (s.acceptCommon o).re = s.re := rfl
@[simp] theorem State.acceptCommon_baudSel (s : State) (o : BitVec 4) : (s.acceptCommon o).baudSel = s.baudSel := rfl
@[simp] theorem State.acceptCommon_done (s : State) (o : BitVec 4) : (s.acceptCommon o).done = false := rfl
@[simp] theorem State.acceptCommon_overrun (s : State) (o : BitVec 4) : (s.acceptCommon o).overrun = false := rfl
@[simp] theorem State.acceptCommon_code (s : State) (o : BitVec 4) : (s.acceptCommon o).code = Code.ok := rfl
@[simp] theorem State.acceptCommon_lastCause (s : State) (o : BitVec 4) : (s.acceptCommon o).lastCause = Code.ok := rfl
@[simp] theorem State.acceptCommon_data0 (s : State) (o : BitVec 4) : (s.acceptCommon o).data0 = 0 := rfl
@[simp] theorem State.acceptCommon_data1 (s : State) (o : BitVec 4) : (s.acceptCommon o).data1 = 0 := rfl
@[simp] theorem State.acceptCommon_irqStatus (s : State) (o : BitVec 4) : (s.acceptCommon o).irqStatus = s.irqStatus := rfl
@[simp] theorem State.acceptCommon_irqEnable (s : State) (o : BitVec 4) : (s.acceptCommon o).irqEnable = s.irqEnable := rfl
@[simp] theorem State.acceptCommon_faillogCause (s : State) (o : BitVec 4) : (s.acceptCommon o).faillogCause = Code.ok := rfl
@[simp] theorem State.acceptCommon_faillogAttempt (s : State) (o : BitVec 4) : (s.acceptCommon o).faillogAttempt = 0 := rfl
@[simp] theorem State.acceptCommon_par (s : State) (o : BitVec 4) : (s.acceptCommon o).par = s.par := rfl
@[simp] theorem State.acceptCommon_inputs (s : State) (o : BitVec 4) : (s.acceptCommon o).inputs = s.inputs := rfl
@[simp] theorem State.acceptCommon_cycle (s : State) (o : BitVec 4) : (s.acceptCommon o).cycle = s.cycle := rfl
@[simp] theorem State.acceptCommon_out (s : State) (o : BitVec 4) : (s.acceptCommon o).out = s.out := rfl

@[simp] theorem State.noRequest_regAddr (s : State) : (s.noRequest).regAddr = s.regAddr := rfl
@[simp] theorem State.noRequest_regValue (s : State) : (s.noRequest).regValue = s.regValue := rfl
@[simp] theorem State.noRequest_regMaxatt (s : State) : (s.noRequest).regMaxatt = s.regMaxatt := rfl
@[simp] theorem State.noRequest_phase (s : State) : (s.noRequest).phase = s.phase := rfl
@[simp] theorem State.noRequest_op (s : State) : (s.noRequest).op = s.op := rfl
@[simp] theorem State.noRequest_addr (s : State) : (s.noRequest).addr = s.addr := rfl
@[simp] theorem State.noRequest_value (s : State) : (s.noRequest).value = s.value := rfl
@[simp] theorem State.noRequest_maxatt (s : State) : (s.noRequest).maxatt = s.maxatt := rfl
@[simp] theorem State.noRequest_variant (s : State) : (s.noRequest).variant = s.variant := rfl
@[simp] theorem State.noRequest_attempt (s : State) : (s.noRequest).attempt = s.attempt := rfl
@[simp] theorem State.noRequest_cnt (s : State) : (s.noRequest).cnt = s.cnt := rfl
@[simp] theorem State.noRequest_txidx (s : State) : (s.noRequest).txidx = s.txidx := rfl
@[simp] theorem State.noRequest_txlen (s : State) : (s.noRequest).txlen = 0 := rfl
@[simp] theorem State.noRequest_rxlen (s : State) : (s.noRequest).rxlen = s.rxlen := rfl
@[simp] theorem State.noRequest_explen (s : State) : (s.noRequest).explen = s.explen := rfl
@[simp] theorem State.noRequest_cause (s : State) : (s.noRequest).cause = s.cause := rfl
@[simp] theorem State.noRequest_txbuf (s : State) : (s.noRequest).txbuf = s.txbuf := rfl
@[simp] theorem State.noRequest_rxbuf (s : State) : (s.noRequest).rxbuf = s.rxbuf := rfl
@[simp] theorem State.noRequest_crc (s : State) : (s.noRequest).crc = s.crc := rfl
@[simp] theorem State.noRequest_de (s : State) : (s.noRequest).de = s.de := rfl
@[simp] theorem State.noRequest_re (s : State) : (s.noRequest).re = s.re := rfl
@[simp] theorem State.noRequest_baudSel (s : State) : (s.noRequest).baudSel = s.baudSel := rfl
@[simp] theorem State.noRequest_done (s : State) : (s.noRequest).done = s.done := rfl
@[simp] theorem State.noRequest_overrun (s : State) : (s.noRequest).overrun = s.overrun := rfl
@[simp] theorem State.noRequest_code (s : State) : (s.noRequest).code = s.code := rfl
@[simp] theorem State.noRequest_lastCause (s : State) : (s.noRequest).lastCause = s.lastCause := rfl
@[simp] theorem State.noRequest_data0 (s : State) : (s.noRequest).data0 = s.data0 := rfl
@[simp] theorem State.noRequest_data1 (s : State) : (s.noRequest).data1 = s.data1 := rfl
@[simp] theorem State.noRequest_irqStatus (s : State) : (s.noRequest).irqStatus = s.irqStatus := rfl
@[simp] theorem State.noRequest_irqEnable (s : State) : (s.noRequest).irqEnable = s.irqEnable := rfl
@[simp] theorem State.noRequest_faillogCause (s : State) : (s.noRequest).faillogCause = s.faillogCause := rfl
@[simp] theorem State.noRequest_faillogAttempt (s : State) : (s.noRequest).faillogAttempt = s.faillogAttempt := rfl
@[simp] theorem State.noRequest_par (s : State) : (s.noRequest).par = s.par := rfl
@[simp] theorem State.noRequest_inputs (s : State) : (s.noRequest).inputs = s.inputs := rfl
@[simp] theorem State.noRequest_cycle (s : State) : (s.noRequest).cycle = s.cycle := rfl
@[simp] theorem State.noRequest_out (s : State) : (s.noRequest).out = s.out := rfl

@[simp] theorem State.setOverrun_regAddr (s : State) : (s.setOverrun).regAddr = s.regAddr := rfl
@[simp] theorem State.setOverrun_regValue (s : State) : (s.setOverrun).regValue = s.regValue := rfl
@[simp] theorem State.setOverrun_regMaxatt (s : State) : (s.setOverrun).regMaxatt = s.regMaxatt := rfl
@[simp] theorem State.setOverrun_phase (s : State) : (s.setOverrun).phase = s.phase := rfl
@[simp] theorem State.setOverrun_op (s : State) : (s.setOverrun).op = s.op := rfl
@[simp] theorem State.setOverrun_addr (s : State) : (s.setOverrun).addr = s.addr := rfl
@[simp] theorem State.setOverrun_value (s : State) : (s.setOverrun).value = s.value := rfl
@[simp] theorem State.setOverrun_maxatt (s : State) : (s.setOverrun).maxatt = s.maxatt := rfl
@[simp] theorem State.setOverrun_variant (s : State) : (s.setOverrun).variant = s.variant := rfl
@[simp] theorem State.setOverrun_attempt (s : State) : (s.setOverrun).attempt = s.attempt := rfl
@[simp] theorem State.setOverrun_cnt (s : State) : (s.setOverrun).cnt = s.cnt := rfl
@[simp] theorem State.setOverrun_txidx (s : State) : (s.setOverrun).txidx = s.txidx := rfl
@[simp] theorem State.setOverrun_txlen (s : State) : (s.setOverrun).txlen = s.txlen := rfl
@[simp] theorem State.setOverrun_rxlen (s : State) : (s.setOverrun).rxlen = s.rxlen := rfl
@[simp] theorem State.setOverrun_explen (s : State) : (s.setOverrun).explen = s.explen := rfl
@[simp] theorem State.setOverrun_cause (s : State) : (s.setOverrun).cause = s.cause := rfl
@[simp] theorem State.setOverrun_txbuf (s : State) : (s.setOverrun).txbuf = s.txbuf := rfl
@[simp] theorem State.setOverrun_rxbuf (s : State) : (s.setOverrun).rxbuf = s.rxbuf := rfl
@[simp] theorem State.setOverrun_crc (s : State) : (s.setOverrun).crc = s.crc := rfl
@[simp] theorem State.setOverrun_de (s : State) : (s.setOverrun).de = s.de := rfl
@[simp] theorem State.setOverrun_re (s : State) : (s.setOverrun).re = s.re := rfl
@[simp] theorem State.setOverrun_baudSel (s : State) : (s.setOverrun).baudSel = s.baudSel := rfl
@[simp] theorem State.setOverrun_done (s : State) : (s.setOverrun).done = s.done := rfl
@[simp] theorem State.setOverrun_overrun (s : State) : (s.setOverrun).overrun = true := rfl
@[simp] theorem State.setOverrun_code (s : State) : (s.setOverrun).code = s.code := rfl
@[simp] theorem State.setOverrun_lastCause (s : State) : (s.setOverrun).lastCause = s.lastCause := rfl
@[simp] theorem State.setOverrun_data0 (s : State) : (s.setOverrun).data0 = s.data0 := rfl
@[simp] theorem State.setOverrun_data1 (s : State) : (s.setOverrun).data1 = s.data1 := rfl
@[simp] theorem State.setOverrun_irqStatus (s : State) : (s.setOverrun).irqStatus = s.irqStatus := rfl
@[simp] theorem State.setOverrun_irqEnable (s : State) : (s.setOverrun).irqEnable = s.irqEnable := rfl
@[simp] theorem State.setOverrun_faillogCause (s : State) : (s.setOverrun).faillogCause = s.faillogCause := rfl
@[simp] theorem State.setOverrun_faillogAttempt (s : State) : (s.setOverrun).faillogAttempt = s.faillogAttempt := rfl
@[simp] theorem State.setOverrun_par (s : State) : (s.setOverrun).par = s.par := rfl
@[simp] theorem State.setOverrun_inputs (s : State) : (s.setOverrun).inputs = s.inputs := rfl
@[simp] theorem State.setOverrun_cycle (s : State) : (s.setOverrun).cycle = s.cycle := rfl
@[simp] theorem State.setOverrun_out (s : State) : (s.setOverrun).out = s.out := rfl

@[simp] theorem State.enterSettle_regAddr (s : State) : (s.enterSettle).regAddr = s.regAddr := rfl
@[simp] theorem State.enterSettle_regValue (s : State) : (s.enterSettle).regValue = s.regValue := rfl
@[simp] theorem State.enterSettle_regMaxatt (s : State) : (s.enterSettle).regMaxatt = s.regMaxatt := rfl
@[simp] theorem State.enterSettle_phase (s : State) : (s.enterSettle).phase = Phase.settle := rfl
@[simp] theorem State.enterSettle_op (s : State) : (s.enterSettle).op = s.op := rfl
@[simp] theorem State.enterSettle_addr (s : State) : (s.enterSettle).addr = s.addr := rfl
@[simp] theorem State.enterSettle_value (s : State) : (s.enterSettle).value = s.value := rfl
@[simp] theorem State.enterSettle_maxatt (s : State) : (s.enterSettle).maxatt = s.maxatt := rfl
@[simp] theorem State.enterSettle_variant (s : State) : (s.enterSettle).variant = s.variant := rfl
@[simp] theorem State.enterSettle_attempt (s : State) : (s.enterSettle).attempt = s.attempt := rfl
@[simp] theorem State.enterSettle_cnt (s : State) : (s.enterSettle).cnt = s.par.nSettle s.variant := rfl
@[simp] theorem State.enterSettle_txidx (s : State) : (s.enterSettle).txidx = s.txidx := rfl
@[simp] theorem State.enterSettle_txlen (s : State) : (s.enterSettle).txlen = s.txlen := rfl
@[simp] theorem State.enterSettle_rxlen (s : State) : (s.enterSettle).rxlen = s.rxlen := rfl
@[simp] theorem State.enterSettle_explen (s : State) : (s.enterSettle).explen = s.explen := rfl
@[simp] theorem State.enterSettle_cause (s : State) : (s.enterSettle).cause = s.cause := rfl
@[simp] theorem State.enterSettle_txbuf (s : State) : (s.enterSettle).txbuf = s.txbuf := rfl
@[simp] theorem State.enterSettle_rxbuf (s : State) : (s.enterSettle).rxbuf = s.rxbuf := rfl
@[simp] theorem State.enterSettle_crc (s : State) : (s.enterSettle).crc = s.crc := rfl
@[simp] theorem State.enterSettle_de (s : State) : (s.enterSettle).de = true := rfl
@[simp] theorem State.enterSettle_re (s : State) : (s.enterSettle).re = false := rfl
@[simp] theorem State.enterSettle_baudSel (s : State) : (s.enterSettle).baudSel = s.baudSel := rfl
@[simp] theorem State.enterSettle_done (s : State) : (s.enterSettle).done = s.done := rfl
@[simp] theorem State.enterSettle_overrun (s : State) : (s.enterSettle).overrun = s.overrun := rfl
@[simp] theorem State.enterSettle_code (s : State) : (s.enterSettle).code = s.code := rfl
@[simp] theorem State.enterSettle_lastCause (s : State) : (s.enterSettle).lastCause = s.lastCause := rfl
@[simp] theorem State.enterSettle_data0 (s : State) : (s.enterSettle).data0 = s.data0 := rfl
@[simp] theorem State.enterSettle_data1 (s : State) : (s.enterSettle).data1 = s.data1 := rfl
@[simp] theorem State.enterSettle_irqStatus (s : State) : (s.enterSettle).irqStatus = s.irqStatus := rfl
@[simp] theorem State.enterSettle_irqEnable (s : State) : (s.enterSettle).irqEnable = s.irqEnable := rfl
@[simp] theorem State.enterSettle_faillogCause (s : State) : (s.enterSettle).faillogCause = s.faillogCause := rfl
@[simp] theorem State.enterSettle_faillogAttempt (s : State) : (s.enterSettle).faillogAttempt = s.faillogAttempt := rfl
@[simp] theorem State.enterSettle_par (s : State) : (s.enterSettle).par = s.par := rfl
@[simp] theorem State.enterSettle_inputs (s : State) : (s.enterSettle).inputs = s.inputs := rfl
@[simp] theorem State.enterSettle_cycle (s : State) : (s.enterSettle).cycle = s.cycle := rfl
@[simp] theorem State.enterSettle_out (s : State) : (s.enterSettle).out = s.out := rfl

@[simp] theorem State.abort_regAddr (s : State) (c : Code) : (s.abort c).regAddr = s.regAddr := rfl
@[simp] theorem State.abort_regValue (s : State) (c : Code) : (s.abort c).regValue = s.regValue := rfl
@[simp] theorem State.abort_regMaxatt (s : State) (c : Code) : (s.abort c).regMaxatt = s.regMaxatt := rfl
@[simp] theorem State.abort_phase (s : State) (c : Code) : (s.abort c).phase = Phase.eval := rfl
@[simp] theorem State.abort_op (s : State) (c : Code) : (s.abort c).op = s.op := rfl
@[simp] theorem State.abort_addr (s : State) (c : Code) : (s.abort c).addr = s.addr := rfl
@[simp] theorem State.abort_value (s : State) (c : Code) : (s.abort c).value = s.value := rfl
@[simp] theorem State.abort_maxatt (s : State) (c : Code) : (s.abort c).maxatt = s.maxatt := rfl
@[simp] theorem State.abort_variant (s : State) (c : Code) : (s.abort c).variant = s.variant := rfl
@[simp] theorem State.abort_attempt (s : State) (c : Code) : (s.abort c).attempt = s.attempt := rfl
@[simp] theorem State.abort_cnt (s : State) (c : Code) : (s.abort c).cnt = s.cnt := rfl
@[simp] theorem State.abort_txidx (s : State) (c : Code) : (s.abort c).txidx = s.txidx := rfl
@[simp] theorem State.abort_txlen (s : State) (c : Code) : (s.abort c).txlen = s.txlen := rfl
@[simp] theorem State.abort_rxlen (s : State) (c : Code) : (s.abort c).rxlen = 0 := rfl
@[simp] theorem State.abort_explen (s : State) (c : Code) : (s.abort c).explen = s.explen := rfl
@[simp] theorem State.abort_cause (s : State) (c : Code) : (s.abort c).cause = c := rfl
@[simp] theorem State.abort_txbuf (s : State) (c : Code) : (s.abort c).txbuf = s.txbuf := rfl
@[simp] theorem State.abort_rxbuf (s : State) (c : Code) : (s.abort c).rxbuf = s.rxbuf := rfl
@[simp] theorem State.abort_crc (s : State) (c : Code) : (s.abort c).crc = s.crc := rfl
@[simp] theorem State.abort_de (s : State) (c : Code) : (s.abort c).de = false := rfl
@[simp] theorem State.abort_re (s : State) (c : Code) : (s.abort c).re = true := rfl
@[simp] theorem State.abort_baudSel (s : State) (c : Code) : (s.abort c).baudSel = s.baudSel := rfl
@[simp] theorem State.abort_done (s : State) (c : Code) : (s.abort c).done = s.done := rfl
@[simp] theorem State.abort_overrun (s : State) (c : Code) : (s.abort c).overrun = s.overrun := rfl
@[simp] theorem State.abort_code (s : State) (c : Code) : (s.abort c).code = s.code := rfl
@[simp] theorem State.abort_lastCause (s : State) (c : Code) : (s.abort c).lastCause = s.lastCause := rfl
@[simp] theorem State.abort_data0 (s : State) (c : Code) : (s.abort c).data0 = s.data0 := rfl
@[simp] theorem State.abort_data1 (s : State) (c : Code) : (s.abort c).data1 = s.data1 := rfl
@[simp] theorem State.abort_irqStatus (s : State) (c : Code) : (s.abort c).irqStatus = s.irqStatus := rfl
@[simp] theorem State.abort_irqEnable (s : State) (c : Code) : (s.abort c).irqEnable = s.irqEnable := rfl
@[simp] theorem State.abort_faillogCause (s : State) (c : Code) : (s.abort c).faillogCause = s.faillogCause := rfl
@[simp] theorem State.abort_faillogAttempt (s : State) (c : Code) : (s.abort c).faillogAttempt = s.faillogAttempt := rfl
@[simp] theorem State.abort_par (s : State) (c : Code) : (s.abort c).par = s.par := rfl
@[simp] theorem State.abort_inputs (s : State) (c : Code) : (s.abort c).inputs = s.inputs := rfl
@[simp] theorem State.abort_cycle (s : State) (c : Code) : (s.abort c).cycle = s.cycle := rfl
@[simp] theorem State.abort_out (s : State) (c : Code) : (s.abort c).out = s.out := rfl

@[simp] theorem State.enterReceive_regAddr (s : State) : (s.enterReceive).regAddr = s.regAddr := rfl
@[simp] theorem State.enterReceive_regValue (s : State) : (s.enterReceive).regValue = s.regValue := rfl
@[simp] theorem State.enterReceive_regMaxatt (s : State) : (s.enterReceive).regMaxatt = s.regMaxatt := rfl
@[simp] theorem State.enterReceive_phase (s : State) : (s.enterReceive).phase = Phase.receive := rfl
@[simp] theorem State.enterReceive_op (s : State) : (s.enterReceive).op = s.op := rfl
@[simp] theorem State.enterReceive_addr (s : State) : (s.enterReceive).addr = s.addr := rfl
@[simp] theorem State.enterReceive_value (s : State) : (s.enterReceive).value = s.value := rfl
@[simp] theorem State.enterReceive_maxatt (s : State) : (s.enterReceive).maxatt = s.maxatt := rfl
@[simp] theorem State.enterReceive_variant (s : State) : (s.enterReceive).variant = s.variant := rfl
@[simp] theorem State.enterReceive_attempt (s : State) : (s.enterReceive).attempt = s.attempt := rfl
@[simp] theorem State.enterReceive_cnt (s : State) : (s.enterReceive).cnt = s.par.rxTimeout := rfl
@[simp] theorem State.enterReceive_txidx (s : State) : (s.enterReceive).txidx = s.txidx := rfl
@[simp] theorem State.enterReceive_txlen (s : State) : (s.enterReceive).txlen = s.txlen := rfl
@[simp] theorem State.enterReceive_rxlen (s : State) : (s.enterReceive).rxlen = 0 := rfl
@[simp] theorem State.enterReceive_explen (s : State) : (s.enterReceive).explen = s.explen := rfl
@[simp] theorem State.enterReceive_cause (s : State) : (s.enterReceive).cause = Code.ok := rfl
@[simp] theorem State.enterReceive_txbuf (s : State) : (s.enterReceive).txbuf = s.txbuf := rfl
@[simp] theorem State.enterReceive_rxbuf (s : State) : (s.enterReceive).rxbuf = s.rxbuf := rfl
@[simp] theorem State.enterReceive_crc (s : State) : (s.enterReceive).crc = s.crc := rfl
@[simp] theorem State.enterReceive_de (s : State) : (s.enterReceive).de = false := rfl
@[simp] theorem State.enterReceive_re (s : State) : (s.enterReceive).re = true := rfl
@[simp] theorem State.enterReceive_baudSel (s : State) : (s.enterReceive).baudSel = s.baudSel := rfl
@[simp] theorem State.enterReceive_done (s : State) : (s.enterReceive).done = s.done := rfl
@[simp] theorem State.enterReceive_overrun (s : State) : (s.enterReceive).overrun = s.overrun := rfl
@[simp] theorem State.enterReceive_code (s : State) : (s.enterReceive).code = s.code := rfl
@[simp] theorem State.enterReceive_lastCause (s : State) : (s.enterReceive).lastCause = s.lastCause := rfl
@[simp] theorem State.enterReceive_data0 (s : State) : (s.enterReceive).data0 = s.data0 := rfl
@[simp] theorem State.enterReceive_data1 (s : State) : (s.enterReceive).data1 = s.data1 := rfl
@[simp] theorem State.enterReceive_irqStatus (s : State) : (s.enterReceive).irqStatus = s.irqStatus := rfl
@[simp] theorem State.enterReceive_irqEnable (s : State) : (s.enterReceive).irqEnable = s.irqEnable := rfl
@[simp] theorem State.enterReceive_faillogCause (s : State) : (s.enterReceive).faillogCause = s.faillogCause := rfl
@[simp] theorem State.enterReceive_faillogAttempt (s : State) : (s.enterReceive).faillogAttempt = s.faillogAttempt := rfl
@[simp] theorem State.enterReceive_par (s : State) : (s.enterReceive).par = s.par := rfl
@[simp] theorem State.enterReceive_inputs (s : State) : (s.enterReceive).inputs = s.inputs := rfl
@[simp] theorem State.enterReceive_cycle (s : State) : (s.enterReceive).cycle = s.cycle := rfl
@[simp] theorem State.enterReceive_out (s : State) : (s.enterReceive).out = s.out := rfl

@[simp] theorem State.endReceive_regAddr (s : State) (c : Code) : (s.endReceive c).regAddr = s.regAddr := rfl
@[simp] theorem State.endReceive_regValue (s : State) (c : Code) : (s.endReceive c).regValue = s.regValue := rfl
@[simp] theorem State.endReceive_regMaxatt (s : State) (c : Code) : (s.endReceive c).regMaxatt = s.regMaxatt := rfl
@[simp] theorem State.endReceive_phase (s : State) (c : Code) : (s.endReceive c).phase = Phase.eval := rfl
@[simp] theorem State.endReceive_op (s : State) (c : Code) : (s.endReceive c).op = s.op := rfl
@[simp] theorem State.endReceive_addr (s : State) (c : Code) : (s.endReceive c).addr = s.addr := rfl
@[simp] theorem State.endReceive_value (s : State) (c : Code) : (s.endReceive c).value = s.value := rfl
@[simp] theorem State.endReceive_maxatt (s : State) (c : Code) : (s.endReceive c).maxatt = s.maxatt := rfl
@[simp] theorem State.endReceive_variant (s : State) (c : Code) : (s.endReceive c).variant = s.variant := rfl
@[simp] theorem State.endReceive_attempt (s : State) (c : Code) : (s.endReceive c).attempt = s.attempt := rfl
@[simp] theorem State.endReceive_cnt (s : State) (c : Code) : (s.endReceive c).cnt = s.cnt := rfl
@[simp] theorem State.endReceive_txidx (s : State) (c : Code) : (s.endReceive c).txidx = s.txidx := rfl
@[simp] theorem State.endReceive_txlen (s : State) (c : Code) : (s.endReceive c).txlen = s.txlen := rfl
@[simp] theorem State.endReceive_rxlen (s : State) (c : Code) : (s.endReceive c).rxlen = s.rxlen := rfl
@[simp] theorem State.endReceive_explen (s : State) (c : Code) : (s.endReceive c).explen = s.explen := rfl
@[simp] theorem State.endReceive_cause (s : State) (c : Code) : (s.endReceive c).cause = c := rfl
@[simp] theorem State.endReceive_txbuf (s : State) (c : Code) : (s.endReceive c).txbuf = s.txbuf := rfl
@[simp] theorem State.endReceive_rxbuf (s : State) (c : Code) : (s.endReceive c).rxbuf = s.rxbuf := rfl
@[simp] theorem State.endReceive_crc (s : State) (c : Code) : (s.endReceive c).crc = s.crc := rfl
@[simp] theorem State.endReceive_de (s : State) (c : Code) : (s.endReceive c).de = s.de := rfl
@[simp] theorem State.endReceive_re (s : State) (c : Code) : (s.endReceive c).re = s.re := rfl
@[simp] theorem State.endReceive_baudSel (s : State) (c : Code) : (s.endReceive c).baudSel = s.baudSel := rfl
@[simp] theorem State.endReceive_done (s : State) (c : Code) : (s.endReceive c).done = s.done := rfl
@[simp] theorem State.endReceive_overrun (s : State) (c : Code) : (s.endReceive c).overrun = s.overrun := rfl
@[simp] theorem State.endReceive_code (s : State) (c : Code) : (s.endReceive c).code = s.code := rfl
@[simp] theorem State.endReceive_lastCause (s : State) (c : Code) : (s.endReceive c).lastCause = s.lastCause := rfl
@[simp] theorem State.endReceive_data0 (s : State) (c : Code) : (s.endReceive c).data0 = s.data0 := rfl
@[simp] theorem State.endReceive_data1 (s : State) (c : Code) : (s.endReceive c).data1 = s.data1 := rfl
@[simp] theorem State.endReceive_irqStatus (s : State) (c : Code) : (s.endReceive c).irqStatus = s.irqStatus := rfl
@[simp] theorem State.endReceive_irqEnable (s : State) (c : Code) : (s.endReceive c).irqEnable = s.irqEnable := rfl
@[simp] theorem State.endReceive_faillogCause (s : State) (c : Code) : (s.endReceive c).faillogCause = s.faillogCause := rfl
@[simp] theorem State.endReceive_faillogAttempt (s : State) (c : Code) : (s.endReceive c).faillogAttempt = s.faillogAttempt := rfl
@[simp] theorem State.endReceive_par (s : State) (c : Code) : (s.endReceive c).par = s.par := rfl
@[simp] theorem State.endReceive_inputs (s : State) (c : Code) : (s.endReceive c).inputs = s.inputs := rfl
@[simp] theorem State.endReceive_cycle (s : State) (c : Code) : (s.endReceive c).cycle = s.cycle := rfl
@[simp] theorem State.endReceive_out (s : State) (c : Code) : (s.endReceive c).out = s.out := rfl

@[simp] theorem State.endResponse_regAddr (s : State) : (s.endResponse).regAddr = s.regAddr := rfl
@[simp] theorem State.endResponse_regValue (s : State) : (s.endResponse).regValue = s.regValue := rfl
@[simp] theorem State.endResponse_regMaxatt (s : State) : (s.endResponse).regMaxatt = s.regMaxatt := rfl
@[simp] theorem State.endResponse_phase (s : State) : (s.endResponse).phase = Phase.eval := rfl
@[simp] theorem State.endResponse_op (s : State) : (s.endResponse).op = s.op := rfl
@[simp] theorem State.endResponse_addr (s : State) : (s.endResponse).addr = s.addr := rfl
@[simp] theorem State.endResponse_value (s : State) : (s.endResponse).value = s.value := rfl
@[simp] theorem State.endResponse_maxatt (s : State) : (s.endResponse).maxatt = s.maxatt := rfl
@[simp] theorem State.endResponse_variant (s : State) : (s.endResponse).variant = s.variant := rfl
@[simp] theorem State.endResponse_attempt (s : State) : (s.endResponse).attempt = s.attempt := rfl
@[simp] theorem State.endResponse_cnt (s : State) : (s.endResponse).cnt = s.cnt := rfl
@[simp] theorem State.endResponse_txidx (s : State) : (s.endResponse).txidx = s.txidx := rfl
@[simp] theorem State.endResponse_txlen (s : State) : (s.endResponse).txlen = s.txlen := rfl
@[simp] theorem State.endResponse_rxlen (s : State) : (s.endResponse).rxlen = s.rxlen := rfl
@[simp] theorem State.endResponse_explen (s : State) : (s.endResponse).explen = s.explen := rfl
@[simp] theorem State.endResponse_cause (s : State) : (s.endResponse).cause = s.cause := rfl
@[simp] theorem State.endResponse_txbuf (s : State) : (s.endResponse).txbuf = s.txbuf := rfl
@[simp] theorem State.endResponse_rxbuf (s : State) : (s.endResponse).rxbuf = s.rxbuf := rfl
@[simp] theorem State.endResponse_crc (s : State) : (s.endResponse).crc = s.crc := rfl
@[simp] theorem State.endResponse_de (s : State) : (s.endResponse).de = s.de := rfl
@[simp] theorem State.endResponse_re (s : State) : (s.endResponse).re = s.re := rfl
@[simp] theorem State.endResponse_baudSel (s : State) : (s.endResponse).baudSel = s.baudSel := rfl
@[simp] theorem State.endResponse_done (s : State) : (s.endResponse).done = s.done := rfl
@[simp] theorem State.endResponse_overrun (s : State) : (s.endResponse).overrun = s.overrun := rfl
@[simp] theorem State.endResponse_code (s : State) : (s.endResponse).code = s.code := rfl
@[simp] theorem State.endResponse_lastCause (s : State) : (s.endResponse).lastCause = s.lastCause := rfl
@[simp] theorem State.endResponse_data0 (s : State) : (s.endResponse).data0 = s.data0 := rfl
@[simp] theorem State.endResponse_data1 (s : State) : (s.endResponse).data1 = s.data1 := rfl
@[simp] theorem State.endResponse_irqStatus (s : State) : (s.endResponse).irqStatus = s.irqStatus := rfl
@[simp] theorem State.endResponse_irqEnable (s : State) : (s.endResponse).irqEnable = s.irqEnable := rfl
@[simp] theorem State.endResponse_faillogCause (s : State) : (s.endResponse).faillogCause = s.faillogCause := rfl
@[simp] theorem State.endResponse_faillogAttempt (s : State) : (s.endResponse).faillogAttempt = s.faillogAttempt := rfl
@[simp] theorem State.endResponse_par (s : State) : (s.endResponse).par = s.par := rfl
@[simp] theorem State.endResponse_inputs (s : State) : (s.endResponse).inputs = s.inputs := rfl
@[simp] theorem State.endResponse_cycle (s : State) : (s.endResponse).cycle = s.cycle := rfl
@[simp] theorem State.endResponse_out (s : State) : (s.endResponse).out = s.out := rfl

@[simp] theorem State.storeByte_regAddr (s : State) (b : Byte) : (s.storeByte b).regAddr = s.regAddr := rfl
@[simp] theorem State.storeByte_regValue (s : State) (b : Byte) : (s.storeByte b).regValue = s.regValue := rfl
@[simp] theorem State.storeByte_regMaxatt (s : State) (b : Byte) : (s.storeByte b).regMaxatt = s.regMaxatt := rfl
@[simp] theorem State.storeByte_phase (s : State) (b : Byte) : (s.storeByte b).phase = s.phase := rfl
@[simp] theorem State.storeByte_op (s : State) (b : Byte) : (s.storeByte b).op = s.op := rfl
@[simp] theorem State.storeByte_addr (s : State) (b : Byte) : (s.storeByte b).addr = s.addr := rfl
@[simp] theorem State.storeByte_value (s : State) (b : Byte) : (s.storeByte b).value = s.value := rfl
@[simp] theorem State.storeByte_maxatt (s : State) (b : Byte) : (s.storeByte b).maxatt = s.maxatt := rfl
@[simp] theorem State.storeByte_variant (s : State) (b : Byte) : (s.storeByte b).variant = s.variant := rfl
@[simp] theorem State.storeByte_attempt (s : State) (b : Byte) : (s.storeByte b).attempt = s.attempt := rfl
@[simp] theorem State.storeByte_cnt (s : State) (b : Byte) : (s.storeByte b).cnt = s.cnt := rfl
@[simp] theorem State.storeByte_txidx (s : State) (b : Byte) : (s.storeByte b).txidx = s.txidx := rfl
@[simp] theorem State.storeByte_txlen (s : State) (b : Byte) : (s.storeByte b).txlen = s.txlen := rfl
@[simp] theorem State.storeByte_rxlen (s : State) (b : Byte) : (s.storeByte b).rxlen = s.rxlen + 1 := rfl
@[simp] theorem State.storeByte_explen (s : State) (b : Byte) : (s.storeByte b).explen = s.explen := rfl
@[simp] theorem State.storeByte_cause (s : State) (b : Byte) : (s.storeByte b).cause = s.cause := rfl
@[simp] theorem State.storeByte_txbuf (s : State) (b : Byte) : (s.storeByte b).txbuf = s.txbuf := rfl
@[simp] theorem State.storeByte_rxbuf (s : State) (b : Byte) : (s.storeByte b).rxbuf = s.rxbuf.set s.rxlen.toNat b := rfl
@[simp] theorem State.storeByte_crc (s : State) (b : Byte) : (s.storeByte b).crc = s.crc := rfl
@[simp] theorem State.storeByte_de (s : State) (b : Byte) : (s.storeByte b).de = s.de := rfl
@[simp] theorem State.storeByte_re (s : State) (b : Byte) : (s.storeByte b).re = s.re := rfl
@[simp] theorem State.storeByte_baudSel (s : State) (b : Byte) : (s.storeByte b).baudSel = s.baudSel := rfl
@[simp] theorem State.storeByte_done (s : State) (b : Byte) : (s.storeByte b).done = s.done := rfl
@[simp] theorem State.storeByte_overrun (s : State) (b : Byte) : (s.storeByte b).overrun = s.overrun := rfl
@[simp] theorem State.storeByte_code (s : State) (b : Byte) : (s.storeByte b).code = s.code := rfl
@[simp] theorem State.storeByte_lastCause (s : State) (b : Byte) : (s.storeByte b).lastCause = s.lastCause := rfl
@[simp] theorem State.storeByte_data0 (s : State) (b : Byte) : (s.storeByte b).data0 = s.data0 := rfl
@[simp] theorem State.storeByte_data1 (s : State) (b : Byte) : (s.storeByte b).data1 = s.data1 := rfl
@[simp] theorem State.storeByte_irqStatus (s : State) (b : Byte) : (s.storeByte b).irqStatus = s.irqStatus := rfl
@[simp] theorem State.storeByte_irqEnable (s : State) (b : Byte) : (s.storeByte b).irqEnable = s.irqEnable := rfl
@[simp] theorem State.storeByte_faillogCause (s : State) (b : Byte) : (s.storeByte b).faillogCause = s.faillogCause := rfl
@[simp] theorem State.storeByte_faillogAttempt (s : State) (b : Byte) : (s.storeByte b).faillogAttempt = s.faillogAttempt := rfl
@[simp] theorem State.storeByte_par (s : State) (b : Byte) : (s.storeByte b).par = s.par := rfl
@[simp] theorem State.storeByte_inputs (s : State) (b : Byte) : (s.storeByte b).inputs = s.inputs := rfl
@[simp] theorem State.storeByte_cycle (s : State) (b : Byte) : (s.storeByte b).cycle = s.cycle := rfl
@[simp] theorem State.storeByte_out (s : State) (b : Byte) : (s.storeByte b).out = s.out := rfl

@[simp] theorem State.retry_regAddr (s : State) : (s.retry).regAddr = s.regAddr := rfl
@[simp] theorem State.retry_regValue (s : State) : (s.retry).regValue = s.regValue := rfl
@[simp] theorem State.retry_regMaxatt (s : State) : (s.retry).regMaxatt = s.regMaxatt := rfl
@[simp] theorem State.retry_phase (s : State) : (s.retry).phase = Phase.settle := rfl
@[simp] theorem State.retry_op (s : State) : (s.retry).op = s.op := rfl
@[simp] theorem State.retry_addr (s : State) : (s.retry).addr = s.addr := rfl
@[simp] theorem State.retry_value (s : State) : (s.retry).value = s.value := rfl
@[simp] theorem State.retry_maxatt (s : State) : (s.retry).maxatt = s.maxatt := rfl
@[simp] theorem State.retry_variant (s : State) : (s.retry).variant = s.variant := rfl
@[simp] theorem State.retry_attempt (s : State) : (s.retry).attempt = s.attempt + 1 := rfl
@[simp] theorem State.retry_cnt (s : State) : (s.retry).cnt = s.par.nSettle s.variant := rfl
@[simp] theorem State.retry_txidx (s : State) : (s.retry).txidx = s.txidx := rfl
@[simp] theorem State.retry_txlen (s : State) : (s.retry).txlen = s.txlen := rfl
@[simp] theorem State.retry_rxlen (s : State) : (s.retry).rxlen = s.rxlen := rfl
@[simp] theorem State.retry_explen (s : State) : (s.retry).explen = s.explen := rfl
@[simp] theorem State.retry_cause (s : State) : (s.retry).cause = s.cause := rfl
@[simp] theorem State.retry_txbuf (s : State) : (s.retry).txbuf = s.txbuf := rfl
@[simp] theorem State.retry_rxbuf (s : State) : (s.retry).rxbuf = s.rxbuf := rfl
@[simp] theorem State.retry_crc (s : State) : (s.retry).crc = s.crc := rfl
@[simp] theorem State.retry_de (s : State) : (s.retry).de = true := rfl
@[simp] theorem State.retry_re (s : State) : (s.retry).re = false := rfl
@[simp] theorem State.retry_baudSel (s : State) : (s.retry).baudSel = s.baudSel := rfl
@[simp] theorem State.retry_done (s : State) : (s.retry).done = s.done := rfl
@[simp] theorem State.retry_overrun (s : State) : (s.retry).overrun = s.overrun := rfl
@[simp] theorem State.retry_code (s : State) : (s.retry).code = s.code := rfl
@[simp] theorem State.retry_lastCause (s : State) : (s.retry).lastCause = s.lastCause := rfl
@[simp] theorem State.retry_data0 (s : State) : (s.retry).data0 = s.data0 := rfl
@[simp] theorem State.retry_data1 (s : State) : (s.retry).data1 = s.data1 := rfl
@[simp] theorem State.retry_irqStatus (s : State) : (s.retry).irqStatus = s.irqStatus := rfl
@[simp] theorem State.retry_irqEnable (s : State) : (s.retry).irqEnable = s.irqEnable := rfl
@[simp] theorem State.retry_faillogCause (s : State) : (s.retry).faillogCause = s.faillogCause := rfl
@[simp] theorem State.retry_faillogAttempt (s : State) : (s.retry).faillogAttempt = s.faillogAttempt := rfl
@[simp] theorem State.retry_par (s : State) : (s.retry).par = s.par := rfl
@[simp] theorem State.retry_inputs (s : State) : (s.retry).inputs = s.inputs := rfl
@[simp] theorem State.retry_cycle (s : State) : (s.retry).cycle = s.cycle := rfl
@[simp] theorem State.retry_out (s : State) : (s.retry).out = s.out := rfl

@[simp] theorem State.startTransaction_regAddr (s : State) (o : TransOp) : (s.startTransaction o).regAddr = s.regAddr := rfl
@[simp] theorem State.startTransaction_regValue (s : State) (o : TransOp) : (s.startTransaction o).regValue = s.regValue := rfl
@[simp] theorem State.startTransaction_regMaxatt (s : State) (o : TransOp) : (s.startTransaction o).regMaxatt = s.regMaxatt := rfl
@[simp] theorem State.startTransaction_phase (s : State) (o : TransOp) : (s.startTransaction o).phase = Phase.settle := rfl
@[simp] theorem State.startTransaction_op (s : State) (o : TransOp) : (s.startTransaction o).op = s.op := rfl
@[simp] theorem State.startTransaction_addr (s : State) (o : TransOp) : (s.startTransaction o).addr = s.addr := rfl
@[simp] theorem State.startTransaction_value (s : State) (o : TransOp) : (s.startTransaction o).value = s.value := rfl
@[simp] theorem State.startTransaction_maxatt (s : State) (o : TransOp) : (s.startTransaction o).maxatt = s.maxatt := rfl
@[simp] theorem State.startTransaction_variant (s : State) (o : TransOp) : (s.startTransaction o).variant = variantOf o := rfl
@[simp] theorem State.startTransaction_attempt (s : State) (o : TransOp) : (s.startTransaction o).attempt = 1 := rfl
@[simp] theorem State.startTransaction_cnt (s : State) (o : TransOp) : (s.startTransaction o).cnt = s.par.nSettle (variantOf o) := rfl
@[simp] theorem State.startTransaction_txidx (s : State) (o : TransOp) : (s.startTransaction o).txidx = 0 := rfl
@[simp] theorem State.startTransaction_txlen (s : State) (o : TransOp) : (s.startTransaction o).txlen = BitVec.ofNat 5 (requestFrame s.par o s.addr s.value).length := rfl
@[simp] theorem State.startTransaction_rxlen (s : State) (o : TransOp) : (s.startTransaction o).rxlen = s.rxlen := rfl
@[simp] theorem State.startTransaction_explen (s : State) (o : TransOp) : (s.startTransaction o).explen = responseLength o := rfl
@[simp] theorem State.startTransaction_cause (s : State) (o : TransOp) : (s.startTransaction o).cause = Code.ok := rfl
@[simp] theorem State.startTransaction_txbuf (s : State) (o : TransOp) : (s.startTransaction o).txbuf = loadPrefix (requestFrame s.par o s.addr s.value) s.txbuf := rfl
@[simp] theorem State.startTransaction_rxbuf (s : State) (o : TransOp) : (s.startTransaction o).rxbuf = s.rxbuf := rfl
@[simp] theorem State.startTransaction_crc (s : State) (o : TransOp) : (s.startTransaction o).crc = s.crc := rfl
@[simp] theorem State.startTransaction_de (s : State) (o : TransOp) : (s.startTransaction o).de = true := rfl
@[simp] theorem State.startTransaction_re (s : State) (o : TransOp) : (s.startTransaction o).re = false := rfl
@[simp] theorem State.startTransaction_baudSel (s : State) (o : TransOp) : (s.startTransaction o).baudSel = decide (variantOf o = Variant.ascii) := rfl
@[simp] theorem State.startTransaction_done (s : State) (o : TransOp) : (s.startTransaction o).done = s.done := rfl
@[simp] theorem State.startTransaction_overrun (s : State) (o : TransOp) : (s.startTransaction o).overrun = s.overrun := rfl
@[simp] theorem State.startTransaction_code (s : State) (o : TransOp) : (s.startTransaction o).code = s.code := rfl
@[simp] theorem State.startTransaction_lastCause (s : State) (o : TransOp) : (s.startTransaction o).lastCause = s.lastCause := rfl
@[simp] theorem State.startTransaction_data0 (s : State) (o : TransOp) : (s.startTransaction o).data0 = s.data0 := rfl
@[simp] theorem State.startTransaction_data1 (s : State) (o : TransOp) : (s.startTransaction o).data1 = s.data1 := rfl
@[simp] theorem State.startTransaction_irqStatus (s : State) (o : TransOp) : (s.startTransaction o).irqStatus = s.irqStatus := rfl
@[simp] theorem State.startTransaction_irqEnable (s : State) (o : TransOp) : (s.startTransaction o).irqEnable = s.irqEnable := rfl
@[simp] theorem State.startTransaction_faillogCause (s : State) (o : TransOp) : (s.startTransaction o).faillogCause = s.faillogCause := rfl
@[simp] theorem State.startTransaction_faillogAttempt (s : State) (o : TransOp) : (s.startTransaction o).faillogAttempt = s.faillogAttempt := rfl
@[simp] theorem State.startTransaction_par (s : State) (o : TransOp) : (s.startTransaction o).par = s.par := rfl
@[simp] theorem State.startTransaction_inputs (s : State) (o : TransOp) : (s.startTransaction o).inputs = s.inputs := rfl
@[simp] theorem State.startTransaction_cycle (s : State) (o : TransOp) : (s.startTransaction o).cycle = s.cycle := rfl
@[simp] theorem State.startTransaction_out (s : State) (o : TransOp) : (s.startTransaction o).out = s.out := rfl

@[simp] theorem State.closeCycle_regAddr (b s : State) : (b.closeCycle s).regAddr = s.regAddr := rfl
@[simp] theorem State.closeCycle_regValue (b s : State) : (b.closeCycle s).regValue = s.regValue := rfl
@[simp] theorem State.closeCycle_regMaxatt (b s : State) : (b.closeCycle s).regMaxatt = s.regMaxatt := rfl
@[simp] theorem State.closeCycle_phase (b s : State) : (b.closeCycle s).phase = s.phase := rfl
@[simp] theorem State.closeCycle_op (b s : State) : (b.closeCycle s).op = s.op := rfl
@[simp] theorem State.closeCycle_addr (b s : State) : (b.closeCycle s).addr = s.addr := rfl
@[simp] theorem State.closeCycle_value (b s : State) : (b.closeCycle s).value = s.value := rfl
@[simp] theorem State.closeCycle_maxatt (b s : State) : (b.closeCycle s).maxatt = s.maxatt := rfl
@[simp] theorem State.closeCycle_variant (b s : State) : (b.closeCycle s).variant = s.variant := rfl
@[simp] theorem State.closeCycle_attempt (b s : State) : (b.closeCycle s).attempt = s.attempt := rfl
@[simp] theorem State.closeCycle_cnt (b s : State) : (b.closeCycle s).cnt = s.cnt := rfl
@[simp] theorem State.closeCycle_txidx (b s : State) : (b.closeCycle s).txidx = s.txidx := rfl
@[simp] theorem State.closeCycle_txlen (b s : State) : (b.closeCycle s).txlen = s.txlen := rfl
@[simp] theorem State.closeCycle_rxlen (b s : State) : (b.closeCycle s).rxlen = s.rxlen := rfl
@[simp] theorem State.closeCycle_explen (b s : State) : (b.closeCycle s).explen = s.explen := rfl
@[simp] theorem State.closeCycle_cause (b s : State) : (b.closeCycle s).cause = s.cause := rfl
@[simp] theorem State.closeCycle_txbuf (b s : State) : (b.closeCycle s).txbuf = s.txbuf := rfl
@[simp] theorem State.closeCycle_rxbuf (b s : State) : (b.closeCycle s).rxbuf = s.rxbuf := rfl
@[simp] theorem State.closeCycle_crc (b s : State) : (b.closeCycle s).crc = s.crc := rfl
@[simp] theorem State.closeCycle_de (b s : State) : (b.closeCycle s).de = s.de := rfl
@[simp] theorem State.closeCycle_re (b s : State) : (b.closeCycle s).re = s.re := rfl
@[simp] theorem State.closeCycle_baudSel (b s : State) : (b.closeCycle s).baudSel = s.baudSel := rfl
@[simp] theorem State.closeCycle_done (b s : State) : (b.closeCycle s).done = s.done := rfl
@[simp] theorem State.closeCycle_overrun (b s : State) : (b.closeCycle s).overrun = s.overrun := rfl
@[simp] theorem State.closeCycle_code (b s : State) : (b.closeCycle s).code = s.code := rfl
@[simp] theorem State.closeCycle_lastCause (b s : State) : (b.closeCycle s).lastCause = s.lastCause := rfl
@[simp] theorem State.closeCycle_data0 (b s : State) : (b.closeCycle s).data0 = s.data0 := rfl
@[simp] theorem State.closeCycle_data1 (b s : State) : (b.closeCycle s).data1 = s.data1 := rfl
@[simp] theorem State.closeCycle_irqStatus (b s : State) : (b.closeCycle s).irqStatus = s.irqStatus := rfl
@[simp] theorem State.closeCycle_irqEnable (b s : State) : (b.closeCycle s).irqEnable = s.irqEnable := rfl
@[simp] theorem State.closeCycle_faillogCause (b s : State) : (b.closeCycle s).faillogCause = s.faillogCause := rfl
@[simp] theorem State.closeCycle_faillogAttempt (b s : State) : (b.closeCycle s).faillogAttempt = s.faillogAttempt := rfl
@[simp] theorem State.closeCycle_par (b s : State) : (b.closeCycle s).par = s.par := rfl
@[simp] theorem State.closeCycle_inputs (b s : State) : (b.closeCycle s).inputs = b.inputs.tail := rfl
@[simp] theorem State.closeCycle_cycle (b s : State) : (b.closeCycle s).cycle = b.cycle + 1 := rfl
@[simp] theorem State.closeCycle_out (b s : State) : (b.closeCycle s).out = b.outputs := rfl

end Sys2Proof.Machine
end

