-- ==== Sys2Proof/Laws/Ops.lean ====
section
/-! SUPPORT. One lemma for each shared operation that says once everything it can do. -/

namespace Sys2Proof.Machine

/-! ## Buffers -/

/-- Putting back the bytes a buffer already begins with changes nothing. -/
theorem loadPrefix_take (n : Nat) (buf : List Byte) (h : n ≤ buf.length) : loadPrefix (buf.take n) buf = buf := by
  simp [loadPrefix, Nat.min_eq_left h]

theorem loadPrefix_length (bs buf : List Byte) (h : bs.length ≤ buf.length) :
    (loadPrefix bs buf).length = buf.length := by
  simp only [loadPrefix, List.length_append, List.length_drop]; omega

theorem loadPrefix_take_length (bs buf : List Byte) : (loadPrefix bs buf).take bs.length = bs := by
  simp [loadPrefix]

/-! ## Acceptance -/

/-- A command is accepted while idle and sets OVERRUN otherwise (44_commands.md R280, R290). -/
theorem accept_idle {s : State} (h : s.phase = .idle) (o : BitVec 4) (f : State → State) :
    s.accept o f = f (s.acceptCommon o) := by simp [State.accept, h]

theorem accept_busy {s : State} (h : s.phase ≠ .idle) (o : BitVec 4) (f : State → State) :
    s.accept o f = s.setOverrun := by simp [State.accept, h]

/-- The three ways a transaction command leaves acceptance, in the order of the checks (44_commands.md R280). -/
theorem transact_cases (s : State) (op : TransOp) :
    (rangeFails op s.value = true ∧ s.transact op = s.noRequest.raise .outOfRange)
      ∨ (rangeFails op s.value = false ∧ s.maxatt = 0 ∧ s.transact op = s.noRequest.raise .badConfig)
      ∨ (rangeFails op s.value = false ∧ s.maxatt ≠ 0 ∧ s.transact op = s.startTransaction op) := by
  unfold State.transact
  by_cases h : rangeFails op s.value = true
  · exact .inl ⟨h, if_pos h⟩
  · refine .inr ?_
    rw [if_neg h]
    rw [Bool.not_eq_true] at h
    by_cases h' : s.maxatt = 0
    · exact .inl ⟨h, h', if_pos h'⟩
    · exact .inr ⟨h, h', if_neg h'⟩

/-! ## The exchange -/

/-- A counted delay goes on or ends (42_transceiver.md R224). -/
theorem countdown_cases (s leave : State) :
    (1 < s.cnt ∧ s.countdown leave = { s with cnt := s.cnt - 1 }) ∨ (s.cnt ≤ 1 ∧ s.countdown leave = leave) := by
  unfold State.countdown; split
  · exact .inl ⟨‹_›, rfl⟩
  · exact .inr ⟨by omega, rfl⟩

/-- Everything one cycle of the transmit part can do: the rows of 42_transceiver.md R206. -/
theorem transmitCycle_cases (s : State) (i : CycleIn) :
    s.transmitCycle i = s
      ∨ (1 < s.cnt ∧ s.transmitCycle i = { s with cnt := s.cnt - 1 })
      ∨ (s.phase = .settle ∧ s.cnt ≤ 1 ∧ s.transmitCycle i = { s with phase := .txFirst, txidx := 0 })
      ∨ (i.txErr = true ∧ s.phase ∈ [Phase.txFirst, .flush1, .txRest, .flush2]
          ∧ s.transmitCycle i = s.abort .transportError)
      ∨ (s.phase = .txFirst ∧ i.txErr = false ∧ i.txReady = true
          ∧ s.transmitCycle i = { s with phase := .flush1, txidx := 1 })
      ∨ (s.phase = .flush1 ∧ i.txErr = false ∧ i.txIdle = true
          ∧ s.transmitCycle i = { s with phase := .gap, cnt := s.par.nGap s.variant })
      ∨ (s.phase = .gap ∧ s.cnt ≤ 1 ∧ s.transmitCycle i = { s with phase := .txRest })
      ∨ (s.phase = .txRest ∧ i.txErr = false ∧ i.txReady = true ∧ s.txidx.setWidth 5 = s.txlen - 1
          ∧ s.transmitCycle i = { s with phase := .flush2 })
      ∨ (s.phase = .txRest ∧ i.txErr = false ∧ i.txReady = true ∧ s.txidx.setWidth 5 ≠ s.txlen - 1
          ∧ s.transmitCycle i = { s with txidx := s.txidx + 1 })
      ∨ (s.phase = .flush2 ∧ i.txErr = false ∧ i.txIdle = true
          ∧ s.transmitCycle i = { s with phase := .postwrite, cnt := s.par.nPost s.variant })
      ∨ (s.phase = .postwrite ∧ s.cnt ≤ 1 ∧ s.transmitCycle i = s.enterReceive) := by
  cases hp : s.phase <;> simp only [State.transmitCycle, hp, State.countdown] <;>
    (repeat' split) <;> simp_all

/-- Everything one cycle of RECEIVE can do (42_transceiver.md R214 to R217). `u` is the state after the store. -/
theorem receiveCycle_cases (s : State) (i : CycleIn) :
    (i.rxErr = true ∧ s.receiveCycle i = s.endReceive .transportError)
      ∨ ∃ u, ((i.rxValid = false ∧ u = s) ∨ (i.rxValid = true ∧ (u = s ∨ u = s.storeByte i.rxData)))
          ∧ ((i.rxValid = true ∧ s.receiveCycle i = u.endResponse)
            ∨ (s.cnt ≤ 1 ∧ s.receiveCycle i = u.endReceive .shortRead)
            ∨ (1 < s.cnt ∧ s.receiveCycle i = { u with cnt := s.cnt - 1 })) := by
  unfold State.receiveCycle
  split
  · exact .inl ⟨‹_›, rfl⟩
  · refine .inr ?_
    split
    · rename_i hv
      split
      · unfold State.receiveLine
        refine ⟨s.storeInLine i.rxData, .inr ⟨hv, ?_⟩, ?_⟩
        · unfold State.storeInLine; split <;> simp
        · have hc : (s.storeInLine i.rxData).cnt = s.cnt := by unfold State.storeInLine; split <;> rfl
          split
          · exact .inl ⟨hv, rfl⟩
          · unfold State.timeoutCycle; rw [hc]; split
            · exact .inr (.inl ⟨‹_›, rfl⟩)
            · exact .inr (.inr ⟨by omega, rfl⟩)
      · unfold State.receiveFixed
        refine ⟨s.storeByte i.rxData, .inr ⟨hv, .inr rfl⟩, ?_⟩
        split
        · exact .inl ⟨hv, rfl⟩
        · unfold State.timeoutCycle; rw [State.storeByte_cnt]; split
          · exact .inr (.inl ⟨‹_›, rfl⟩)
          · exact .inr (.inr ⟨by omega, rfl⟩)
    · rename_i hv
      refine ⟨s, .inl ⟨by simpa using hv, rfl⟩, .inr ?_⟩
      unfold State.timeoutCycle; split
      · exact .inl ⟨‹_›, rfl⟩
      · exact .inr ⟨by omega, rfl⟩

/-! ## EVAL -/

/-- A failed attempt is retried or exhausts the command (43_retry.md R254, R255, R259). -/
theorem failAttempt_cases (s : State) (c : Code) :
    (s.attempt.toNat < s.maxatt.toNat ∧ s.failAttempt c = (s.report c s.attempt).retry)
      ∨ (s.maxatt.toNat ≤ s.attempt.toNat ∧ s.failAttempt c = (s.report c s.attempt).finish .exhausted c 0 0) := by
  simp only [State.failAttempt]; split
  · exact .inl ⟨‹_›, rfl⟩
  · exact .inr ⟨by omega, rfl⟩

/-- Everything an EVAL cycle can do (43_retry.md R259). -/
theorem evalCycle_cases (s : State) (v : Verdict) :
    (∃ code a b, s.cause = .ok ∧ v = .accept code a b ∧ s.evalCycle v = s.finish code .ok a b)
      ∨ (∃ c, s.cause = .ok ∧ v = .reject c ∧ s.evalCycle v = s.failAttempt c)
      ∨ (s.cause ≠ .ok ∧ s.evalCycle v = s.failAttempt s.cause) := by
  unfold State.evalCycle
  split
  · cases v with
    | accept code a b => exact .inl ⟨code, a, b, ‹_›, rfl, rfl⟩
    | reject c => exact .inr (.inl ⟨c, ‹_›, rfl, rfl⟩)
  · exact .inr (.inr ⟨‹_›, rfl⟩)

/-! ## The host's part -/

/-- Everything a write to a register other than CMD can do (20_memory.md R63). -/
theorem writeReg_cases (s : State) (r : Reg) (w : Word) :
    s.writeReg r w = s
      ∨ (r = .addr ∧ s.writeReg r w = { s with regAddr := w.setWidth 8 })
      ∨ (r = .value ∧ s.writeReg r w = { s with regValue := w.setWidth 16 })
      ∨ (r = .maxatt ∧ s.writeReg r w = { s with regMaxatt := w.setWidth 8 })
      ∨ (r = .crc ∧ s.writeReg r w = { s with crc := w.setWidth 16 })
      ∨ (r = .irqStatus ∧ s.writeReg r w = s.ackIrq (w.setWidth 2))
      ∨ (r = .irqEnable ∧ s.writeReg r w = { s with irqEnable := w.setWidth 2 }) := by
  cases r <;> simp [State.writeReg]

/-- The host's part without a command is a register write or nothing. -/
theorem hostCycle_cases (s : State) : s.hostCycle = s ∨ s.hostCycle = s.writeReg s.hostReg s.now.host.wdata := by
  unfold State.hostCycle; split <;> simp

/-! ## The cycle -/

/-- Every command word decodes (30_encoding.md R91). -/
theorem decode_command_wordBytes (p : Params) (w : Word) :
    decode p .command (wordBytes w) = .ok (decodeCommand (packWord (lane w 0) (lane w 1) (lane w 2) (lane w 3))) := rfl

/-- Every meaning answers a next state. -/
theorem exec_next (i : Instr) (s : State) : ∃ t, exec i s = .next t := by
  cases i <;> exact ⟨_, rfl⟩

/-- Without a CMD write the host's part of a cycle is the register access alone (20_memory.md R62, R63). -/
theorem hostPart_of_not_commandWrite {s : State} (h : s.commandWrite = false) : s.hostPart = .next s.hostCycle := by
  simp [State.hostPart, State.fetchCommand, h]

/-- The host's part of a cycle always answers a next state. -/
theorem hostPart_next (s : State) : ∃ t, s.hostPart = .next t := by
  unfold State.hostPart; split
  · exact exec_next _ _
  · exact ⟨_, rfl⟩

/-- The sequencer's part of a cycle always answers a next state. -/
theorem sequencerPart_next (b s : State) : ∃ t, b.sequencerPart s = .next t := by
  unfold State.sequencerPart; split
  · exact ⟨_, rfl⟩
  · split
    · exact exec_next _ _
    · exact ⟨_, rfl⟩

/-- Everything a step can do: the reset edge, the refusal of a narrow access, or the host's part and then the
sequencer's part. -/
theorem step_cases (s : State) :
    (s.now.rst = true ∧ step s = .next (s.closeCycle s.resetEdge))
      ∨ (s.now.rst = false ∧ s.now.host.whole = false ∧ step s = .refused (.narrowAccess s.now.host.width))
      ∨ (s.now.rst = false ∧ s.now.host.whole = true ∧ ∃ t u, s.hostPart = .next t ∧ s.sequencerPart t = .next u
          ∧ step s = .next (s.closeCycle u)) := by
  unfold step State.clock
  cases hr : s.now.rst
  · cases hw : s.now.host.whole
    · simp
    · obtain ⟨t, ht⟩ := hostPart_next s
      obtain ⟨u, hu⟩ := sequencerPart_next s t
      refine .inr (.inr ⟨rfl, rfl, t, u, ht, hu, ?_⟩)
      simp [ht, hu, andThen]
  · simp

end Sys2Proof.Machine
end

