-- ==== Sys2Proof/Laws/Cycle.lean ====
section
/-! SUPPORT. What the two parts of a cycle can do, without naming the instruction. -/

namespace Sys2Proof.Machine

/-- An accepted command ends at once, or starts a transaction (44_commands.md R280, R281). `a` is the state the
common part of acceptance leaves. -/
inductive Accepted (a : State) : State → Prop where
  | crcInit : Accepted a ({ a.noRequest with crc := 0xFFFF#16 }.finish .ok .ok (zext32 0xFFFF#16) 0)
  | crcByte : Accepted a ({ a.noRequest with crc := crcUpdate a.crc (loByte a.regValue) }.finish .ok .ok
      (zext32 (crcUpdate a.crc (loByte a.regValue))) 0)
  | refused (c : Code) (h : c ∈ [Code.illegalCommand, .outOfRange, .badConfig]) : Accepted a (a.noRequest.raise c)
  | started (op : TransOp) (hop : a.op = op.code) (hr : rangeFails op a.value = false) (hm : a.maxatt ≠ 0) :
      Accepted a (a.startTransaction op)

/-- A transaction command is one of the cases of acceptance. -/
theorem accepted_transact (a : State) (op : TransOp) (h : a.op = op.code) : Accepted a (a.transact op) := by
  rcases transact_cases a op with ⟨-, e⟩ | ⟨-, -, e⟩ | ⟨hr, hm, e⟩ <;> rw [e]
  · exact .refused _ (by decide)
  · exact .refused _ (by decide)
  · exact .started op h hr hm

/-- The decoder answers every command word with a command, which is accepted while idle and dropped otherwise. -/
theorem exec_decodeCommand (w : Word) (s : State) :
    ∃ t, exec (decodeCommand w) s = .next t
      ∧ ((s.phase ≠ .idle ∧ t = s.setOverrun) ∨ (s.phase = .idle ∧ ∃ o, Accepted (s.acceptCommon o) t)) := by
  have key : ∀ (o : BitVec 4) (f : State → State), Accepted (s.acceptCommon o) (f (s.acceptCommon o)) →
      ((s.phase ≠ .idle ∧ s.accept o f = s.setOverrun)
        ∨ (s.phase = .idle ∧ ∃ o', Accepted (s.acceptCommon o') (s.accept o f))) := by
    intro o f hf
    by_cases h : s.phase = .idle
    · exact .inr ⟨h, o, by rw [accept_idle h]; exact hf⟩
    · exact .inl ⟨h, accept_busy h o f⟩
  unfold decodeCommand
  split <;> refine ⟨_, rfl, key _ _ ?_⟩
  case h_1 => exact .refused _ (by decide)
  case h_2 => exact .crcInit
  case h_3 => exact .crcByte
  case h_4 => exact accepted_transact _ .readTemp rfl
  case h_5 => exact accepted_transact _ .readEmis rfl
  case h_6 => exact accepted_transact _ .writeId rfl
  case h_7 => exact accepted_transact _ .writeEmis rfl
  case h_8 => exact accepted_transact _ .co2Query rfl
  case h_9 => exact accepted_transact _ .co2Status rfl
  case h_10 => exact accepted_transact _ .asciiRead rfl
  all_goals exact .refused _ (by decide)

/-- Everything the host's part of a cycle can do. -/
theorem hostPart_cases {s t : State} (h : s.hostPart = .next t) :
    t = s ∨ t = s.writeReg s.hostReg s.now.host.wdata ∨ (s.phase ≠ .idle ∧ t = s.setOverrun)
      ∨ (s.phase = .idle ∧ s.commandWrite = true ∧ ∃ o, Accepted (s.acceptCommon o) t) := by
  unfold State.hostPart State.fetchCommand at h
  by_cases hw : s.commandWrite = true
  · rw [if_pos hw] at h
    obtain ⟨u, hu, hc⟩ := exec_decodeCommand (packWord (lane s.now.host.wdata 0) (lane s.now.host.wdata 1)
      (lane s.now.host.wdata 2) (lane s.now.host.wdata 3)) s
    have : exec (decodeCommand (packWord (lane s.now.host.wdata 0) (lane s.now.host.wdata 1)
      (lane s.now.host.wdata 2) (lane s.now.host.wdata 3))) s = .next t := h
    rw [hu] at this
    cases this
    rcases hc with hc | ⟨hp, hc⟩
    · exact .inr (.inr (.inl hc))
    · exact .inr (.inr (.inr ⟨hp, hw, hc⟩))
  · rw [if_neg hw] at h
    cases h
    rcases hostCycle_cases s with e | e
    · exact .inl e
    · exact .inr (.inl e)

/-- While a command runs the host's part only writes host registers, or sets OVERRUN. -/
theorem hostPart_busy {s t : State} (hp : s.phase ≠ .idle) (h : s.hostPart = .next t) :
    t = s ∨ t = s.writeReg s.hostReg s.now.host.wdata ∨ t = s.setOverrun := by
  rcases hostPart_cases h with e | e | ⟨-, e⟩ | ⟨hi, -⟩
  · exact .inl e
  · exact .inr (.inl e)
  · exact .inr (.inr e)
  · exact absurd hi hp

/-- A request frame's meaning is the cycle of the transmit part with that frame. -/
theorem exec_of_decodeRequest {p : Params} {op : TransOp} {bs : List Byte} {i : Instr}
    (h : decode p (.request op) bs = .ok i) (s : State) : exec i s = .next (s.sendFrame (encode s.par i)) := by
  simp only [decode, decodeRequest] at h
  cases op <;> simp only [decodeReadRequest, decodeWriteRequest, decodeLiteralRequest,
    decodeAsciiRequest] at h <;>
    (repeat' split at h) <;> first | cases h; rfl | cases h

/-- A response frame's meaning is the EVAL cycle with that frame, judged as a response to `s.op`. -/
theorem exec_of_decodeResponse {p : Params} {op : TransOp} {bs : List Byte} {i : Instr}
    (h : decode p (.response op) bs = .ok i) {s : State} (ho : s.op = op.code) :
    exec i s = .next (s.judgeFrame op (encode s.par i)) := by
  simp only [decode, decodeResponse] at h
  cases op <;>
    simp only [decodeTempResponse, decodeEmisResponse, decodeWriteResponse, decodeCo2Response,
      decodeAsciiResponse] at h <;>
    (repeat' split at h) <;>
    first
      | cases h; simp [exec, execRspReadTemp, execRspReadEmis, execRspWrite, execRspCo2, execRspAscii, State.writeOp,
          State.co2Op, ho, TransOp.code]
      | cases h

/-- Everything the sequencer's part of a cycle can do. -/
theorem sequencerPart_cases {b s u : State} (ho : s.op = b.op) (hpar : s.par = b.par) (h : b.sequencerPart s = .next u) :
    (b.phase = .idle ∧ u = s)
      ∨ (b.phase ≠ .idle ∧ u = s.sequencerCycle)
      ∨ (∃ op i, TransOp.ofCode b.op = some op ∧ b.phase.transmitting = true
          ∧ decode b.par (.request op) b.requestBytes = .ok i ∧ u = s.sendFrame (encode b.par i))
      ∨ (∃ op i, TransOp.ofCode b.op = some op ∧ b.phase = .eval ∧ b.cause = .ok
          ∧ decode b.par (.response op) b.responseBytes = .ok i ∧ u = s.judgeFrame op (encode b.par i)) := by
  unfold State.sequencerPart at h
  by_cases hp : b.phase = .idle
  · rw [if_pos hp] at h; cases h; exact .inl ⟨hp, rfl⟩
  · rw [if_neg hp] at h
    refine .inr ?_
    unfold State.fetchFrame State.frameContext at h
    cases hop : TransOp.ofCode b.op with
    | none => simp only [hop] at h; cases h; exact .inl ⟨hp, rfl⟩
    | some op =>
      simp only [hop] at h
      by_cases ht : b.phase.transmitting = true
      · simp only [ht, if_true] at h
        cases hd : decode b.par (.request op) b.requestBytes with
        | error r => rw [hd] at h; cases h; exact .inl ⟨hp, rfl⟩
        | ok i =>
          rw [hd] at h
          simp only [Except.toOption, exec_of_decodeRequest hd, hpar] at h
          cases h
          exact .inr (.inl ⟨op, i, rfl, ht, hd, rfl⟩)
      · rw [if_neg ht] at h
        by_cases he : b.phase = .eval ∧ b.cause = .ok
        · rw [if_pos he] at h
          cases hd : decode b.par (.response op) b.responseBytes with
          | error r => simp only [hd, Except.toOption] at h; cases h; exact .inl ⟨hp, rfl⟩
          | ok i =>
            simp only [hd, Except.toOption, exec_of_decodeResponse hd (ho.trans (ofCode_eq_some hop)), hpar] at h
            cases h
            exact .inr (.inr ⟨op, i, rfl, he.1, he.2, hd, rfl⟩)
        · rw [if_neg he] at h; cases h; exact .inl ⟨hp, rfl⟩

end Sys2Proof.Machine
end

