-- ==== Sys2Proof/Laws/PerInstr.lean ====
section
/-! SUPPORT. What holds of every instruction as syntax: its encoding has the length its row gives it. -/

namespace Sys2Proof.Laws

/-- The number of bytes of an instruction (30_encoding.md R90, R103; 41_frame_codec.md R166). -/
def byteCount : Instr → Nat
  | .crcInit _ => 4
  | .crcByte _ => 4
  | .readTemp _ => 4
  | .readEmis _ => 4
  | .writeId _ => 4
  | .writeEmis _ => 4
  | .co2Query _ => 4
  | .co2Status _ => 4
  | .asciiRead _ => 4
  | .reserved0 _ => 4
  | .reservedA _ => 4
  | .reservedB _ => 4
  | .reservedC _ => 4
  | .reservedD _ => 4
  | .reservedE _ => 4
  | .reservedF _ => 4
  | .reqReadTemp _ _ _ _ _ => 8
  | .reqReadEmis _ _ _ _ _ => 8
  | .reqWriteId _ _ _ _ => 8
  | .reqWriteEmis _ _ _ _ => 8
  | .reqCo2Query _ => 8
  | .reqCo2Status _ => 8
  | .reqAsciiRead => 16
  | .rspReadTemp _ _ _ _ _ _ _ => 9
  | .rspReadEmis _ _ _ _ _ _ _ => 7
  | .rspWrite _ _ _ _ _ _ _ _ => 8
  | .rspCo2 _ _ _ _ _ _ _ => 8
  | .rspAscii line => line.length

/-- An instruction's encoding has its row's number of bytes. -/
def EncodeLength.Statement (i : Instr) : Prop := ∀ p : Params, (encode p i).length = byteCount i

theorem EncodeLength.crcInit (a) : EncodeLength.Statement (.crcInit a) := fun _ => rfl

theorem EncodeLength.crcByte (a) : EncodeLength.Statement (.crcByte a) := fun _ => rfl

theorem EncodeLength.readTemp (a) : EncodeLength.Statement (.readTemp a) := fun _ => rfl

theorem EncodeLength.readEmis (a) : EncodeLength.Statement (.readEmis a) := fun _ => rfl

theorem EncodeLength.writeId (a) : EncodeLength.Statement (.writeId a) := fun _ => rfl

theorem EncodeLength.writeEmis (a) : EncodeLength.Statement (.writeEmis a) := fun _ => rfl

theorem EncodeLength.co2Query (a) : EncodeLength.Statement (.co2Query a) := fun _ => rfl

theorem EncodeLength.co2Status (a) : EncodeLength.Statement (.co2Status a) := fun _ => rfl

theorem EncodeLength.asciiRead (a) : EncodeLength.Statement (.asciiRead a) := fun _ => rfl

theorem EncodeLength.reserved0 (a) : EncodeLength.Statement (.reserved0 a) := fun _ => rfl

theorem EncodeLength.reservedA (a) : EncodeLength.Statement (.reservedA a) := fun _ => rfl

theorem EncodeLength.reservedB (a) : EncodeLength.Statement (.reservedB a) := fun _ => rfl

theorem EncodeLength.reservedC (a) : EncodeLength.Statement (.reservedC a) := fun _ => rfl

theorem EncodeLength.reservedD (a) : EncodeLength.Statement (.reservedD a) := fun _ => rfl

theorem EncodeLength.reservedE (a) : EncodeLength.Statement (.reservedE a) := fun _ => rfl

theorem EncodeLength.reservedF (a) : EncodeLength.Statement (.reservedF a) := fun _ => rfl

theorem EncodeLength.reqReadTemp (a b c d e) : EncodeLength.Statement (.reqReadTemp a b c d e) := fun _ => rfl

theorem EncodeLength.reqReadEmis (a b c d e) : EncodeLength.Statement (.reqReadEmis a b c d e) := fun _ => rfl

theorem EncodeLength.reqWriteId (a b c d) : EncodeLength.Statement (.reqWriteId a b c d) := fun _ => rfl

theorem EncodeLength.reqWriteEmis (a b c d) : EncodeLength.Statement (.reqWriteEmis a b c d) := fun _ => rfl

theorem EncodeLength.reqCo2Query (a) : EncodeLength.Statement (.reqCo2Query a) := fun _ => rfl

theorem EncodeLength.reqCo2Status (a) : EncodeLength.Statement (.reqCo2Status a) := fun _ => rfl

theorem EncodeLength.reqAsciiRead : EncodeLength.Statement .reqAsciiRead := fun _ => rfl

theorem EncodeLength.rspReadTemp (a b c d e f g) : EncodeLength.Statement (.rspReadTemp a b c d e f g) := fun _ => rfl

theorem EncodeLength.rspReadEmis (a b c d e f g) : EncodeLength.Statement (.rspReadEmis a b c d e f g) := fun _ => rfl

theorem EncodeLength.rspWrite (a b c d e f g h) : EncodeLength.Statement (.rspWrite a b c d e f g h) := fun _ => rfl

theorem EncodeLength.rspCo2 (a b c d e f g) : EncodeLength.Statement (.rspCo2 a b c d e f g) := fun _ => rfl

theorem EncodeLength.rspAscii (a) : EncodeLength.Statement (.rspAscii a) := fun _ => rfl

end Sys2Proof.Laws
end

