-- ==== Sys2Proof/Tests/Slice0.lean ====
section
/-! SUPPORT. The model's own tests: ill-formed terms that WellFormed refuses, one word of every row read by the
decoder, one-step runs with the values of 95_test_vectors.md, and for each statement with hypotheses a state that
meets them. The parameters are the illustrative ones of 95_test_vectors.md. -/

open Sys2Proof Sys2Proof.Machine Sys2Proof.Claims

namespace Sys2Proof.Tests

-- One theorem after another: kernel evaluations side by side would take a thread each.
set_option Elab.async false

/-! ## States to test on -/

/-- The parameters of 95_test_vectors.md. The two literal frames are arbitrary. -/
def params : Params where
  clkHz := 1000
  settleMs := ⟨500, 500, 500⟩
  gapMs := ⟨1, 1, 1⟩
  postMs := ⟨5, 5, 5⟩
  rxTimeout := 20
  regTemp := 0x0000
  cntTemp := 0x0002
  regEmis := 0x0000
  cntEmis := 0x0001
  co2QueryFrame := ⟨0xFE, 0x03, 0x00, 0x00, 0x00, 0x01, 0x11, 0x22⟩
  co2StatusFrame := ⟨0xFE, 0x03, 0x00, 0x01, 0x00, 0x01, 0x33, 0x44⟩
  asciiCtrl := 0x02
  asciiValOffset := 9
  rxbufBytes := 64
  reActiveLow := false

/-- After reset, with zeros in the buffers. -/
def idle : State :=
  { State.afterReset params 0 [] 0
      { de := false, rePin := true, baudSel := false, txValid := false, txData := 0, irq := false, hRdata := 0 } with
    txbuf := List.replicate 16 0, rxbuf := List.replicate 64 0 }

/-- The host writes a register in the coming cycle. -/
def writing (s : State) (addr : Byte) (w : Word) : State := { s with inputs := [quietCycle (hostWrite addr w)] }

/-- The host writes CMD in the coming cycle. -/
def issuing (s : State) (w : Word) : State := writing s 0x00#8 w

/-- What the step leads to. -/
def gives (s : State) (f : State → Bool) : Bool :=
  match step s with
  | .next t => f t
  | .fault _ => false
  | .refused _ => false

/-- The request frames of 95_test_vectors.md section 2.2, for address 1. -/
def tempFrame : List Byte := [0x01, 0x03, 0x00, 0x00, 0x00, 0x02, 0xC4, 0x0B]
def emisFrame : List Byte := [0x01, 0x04, 0x00, 0x00, 0x00, 0x01, 0x31, 0xCA]
def idFrame : List Byte := [0x01, 0x06, 0x03, 0xE8, 0x00, 0x05, 0xC9, 0xB9]
def setEmisFrame : List Byte := [0x01, 0x06, 0x03, 0x20, 0x00, 0x32, 0x09, 0x91]
def lineFrame : List Byte :=
  [0x02, 0x30, 0x31, 0x44, 0x52, 0x53, 0x2C, 0x30, 0x31, 0x2C, 0x30, 0x30, 0x30, 0x31, 0x0D, 0x0A]
def queryFrame : List Byte := [0xFE, 0x03, 0x00, 0x00, 0x00, 0x01, 0x11, 0x22]
def statusFrame : List Byte := [0xFE, 0x03, 0x00, 0x01, 0x00, 0x01, 0x33, 0x44]

/-- The latched VALUE of the request frames above. -/
def operandOf : TransOp → Half
  | .writeId => 5
  | .writeEmis => 50
  | .readTemp | .readEmis | .co2Query | .co2Status | .asciiRead => 0

/-- The first of three attempts of a command, in a given phase, in its phase's last counted cycle. The coming cycle
has no host access and a transport that is ready. -/
def running (op : TransOp) (frame : List Byte) (phase : Phase) : State :=
  { idle with
    op := op.code, addr := 1, value := operandOf op, maxatt := 3, attempt := 1,
    txbuf := frame ++ List.replicate (16 - frame.length) 0, txlen := BitVec.ofNat 5 frame.length,
    explen := responseLength op, variant := variantOf op, baudSel := decide (op = .asciiRead), phase := phase,
    cnt := 1, de := phase.transmitting, re := !phase.transmitting, inputs := [quietCycle quietHost] }

/-- A command in EVAL with a response in RXBUF. -/
def judging (op : TransOp) (frame response : List Byte) : State :=
  { running op frame .eval with
    rxbuf := response ++ List.replicate (64 - response.length) 0, rxlen := BitVec.ofNat 8 response.length }

/-- A command in a transmit phase whose next byte has index `k`. -/
def sending (op : TransOp) (frame : List Byte) (phase : Phase) (k : BitVec 4) : State :=
  { running op frame phase with txidx := k }

/-! ## WellFormed refuses ill-formed terms -/

theorem test_params_wf : params.wf = true ∧ { params with clkHz := 999 }.wf = false
    ∧ { params with rxTimeout := 0 }.wf = false ∧ { params with rxbufBytes := 12 }.wf = false
    ∧ { params with rxbufBytes := 66 }.wf = false ∧ { params with rxbufBytes := 132 }.wf = false := by decide +kernel

theorem test_wf_read_requests :
    (Instr.reqReadTemp 1 0x0000 0x0002 0xC4 0x0B).wellFormed params = true
    ∧ (Instr.reqReadTemp 1 0x0001 0x0002 0xC4 0x0B).wellFormed params = false
    ∧ (Instr.reqReadTemp 1 0x0000 0x0003 0xC4 0x0B).wellFormed params = false
    ∧ (Instr.reqReadTemp 1 0x0000 0x0002 0xC5 0x0B).wellFormed params = false
    ∧ (Instr.reqReadTemp 1 0x0000 0x0002 0xC4 0x0C).wellFormed params = false
    ∧ (Instr.reqReadEmis 1 0x0000 0x0001 0x31 0xCA).wellFormed params = true
    ∧ (Instr.reqReadEmis 1 0x0100 0x0001 0x31 0xCA).wellFormed params = false
    ∧ (Instr.reqReadEmis 1 0x0000 0x0002 0x31 0xCA).wellFormed params = false
    ∧ (Instr.reqReadEmis 1 0x0000 0x0001 0xCA 0x31).wellFormed params = false := by decide +kernel

theorem test_wf_write_requests :
    (Instr.reqWriteId 1 5 0xC9 0xB9).wellFormed params = true
    ∧ (Instr.reqWriteId 1 5 0xB9 0xC9).wellFormed params = false
    ∧ (Instr.reqWriteEmis 5 99 0xC9 0xE9).wellFormed params = true
    ∧ (Instr.reqWriteEmis 5 99 0xC9 0xE8).wellFormed params = false
    ∧ (let c := crc16 [0x05, 0x06, 0x03, 0x20, 0x00, 0x00];
      (Instr.reqWriteEmis 5 0 (loByte c) (hiByte c)).wellFormed params = false)
    ∧ (let c := crc16 [0x05, 0x06, 0x03, 0x20, 0x00, 0x64];
      (Instr.reqWriteEmis 5 100 (loByte c) (hiByte c)).wellFormed params = false) := by decide +kernel

theorem test_wf_literal_requests :
    (Instr.reqCo2Query params.co2QueryFrame).wellFormed params = true
    ∧ (Instr.reqCo2Query params.co2StatusFrame).wellFormed params = false
    ∧ (Instr.reqCo2Status params.co2StatusFrame).wellFormed params = true
    ∧ (Instr.reqCo2Status params.co2QueryFrame).wellFormed params = false := by decide +kernel

theorem test_wf_responses :
    (Instr.rspReadTemp 1 3 4 0x00EB 0x00D2 0x0A 0x5A).wellFormed params = true
    ∧ (Instr.rspReadTemp 1 3 4 0x00EA 0x00D2 0x0A 0x5A).wellFormed params = false
    ∧ (Instr.rspReadEmis 1 4 2 0 0x5F 0xF9 0x08).wellFormed params = true
    ∧ (Instr.rspReadEmis 1 4 2 0 0x5F 0x08 0xF9).wellFormed params = false
    ∧ (Instr.rspWrite 1 6 3 0xE8 0 5 0xC9 0xB9).wellFormed params = true
    ∧ (Instr.rspWrite 1 6 3 0xE8 0 6 0xC9 0xB9).wellFormed params = false
    ∧ (Instr.rspAscii [0x30, 0x0A]).wellFormed params = true
    ∧ (Instr.rspAscii [0x30, 0x0D]).wellFormed params = false
    ∧ (Instr.rspAscii []).wellFormed params = false
    ∧ (Instr.rspAscii [0x0A, 0x30, 0x0A]).wellFormed params = false
    ∧ (Instr.rspAscii [0x30, 0x0D]).encodable = false := by decide +kernel

/-! ## A word of every row, written out from the spec's encoding -/

/-- 30_encoding.md R90, R91: `0000 0000 0000 0000 0000 0000 0001 0001` is CRC_INIT with bit 4 set, and so on. -/
theorem test_decode_commands :
    decode params .command [0b00010001, 0, 0, 0] = .ok (.crcInit 1)
    ∧ decode params .command [0b00010010, 0, 0, 0] = .ok (.crcByte 1)
    ∧ decode params .command [0b00000011, 0b00000001, 0, 0] = .ok (.readTemp 0x10)
    ∧ decode params .command [0b00000100, 0, 0b00000001, 0] = .ok (.readEmis 0x1000)
    ∧ decode params .command [0b00000101, 0, 0, 0b00000001] = .ok (.writeId 0x100000)
    ∧ decode params .command [0b00000110, 0, 0, 0b10000000] = .ok (.writeEmis 0x8000000)
    ∧ decode params .command [0b00000111, 0, 0, 0] = .ok (.co2Query 0)
    ∧ decode params .command [0b00001000, 0, 0, 0] = .ok (.co2Status 0)
    ∧ decode params .command [0b00001001, 0, 0, 0] = .ok (.asciiRead 0) := by decide +kernel

/-- 30_encoding.md R92. -/
theorem test_decode_reserved :
    decode params .command [0b00000000, 0, 0, 0] = .ok (.reserved0 0)
    ∧ decode params .command [0b00001010, 0, 0, 0] = .ok (.reservedA 0)
    ∧ decode params .command [0b00001011, 0, 0, 0] = .ok (.reservedB 0)
    ∧ decode params .command [0b00001100, 0, 0, 0] = .ok (.reservedC 0)
    ∧ decode params .command [0b00001101, 0, 0, 0] = .ok (.reservedD 0)
    ∧ decode params .command [0b00001110, 0, 0, 0] = .ok (.reservedE 0)
    ∧ decode params .command [0b11111111, 0, 0, 0] = .ok (.reservedF 0xF) := by decide +kernel

/-- 30_encoding.md R96, R97, R99, R101. -/
theorem test_decode_requests :
    decode params (.request .readTemp) [0x01, 0b00000011, 0x12, 0x34, 0x56, 0x78, 0x9A, 0xBC]
        = .ok (.reqReadTemp 0x01 0x1234 0x5678 0x9A 0xBC)
    ∧ decode params (.request .readEmis) [0x01, 0b00000100, 0x12, 0x34, 0x56, 0x78, 0x9A, 0xBC]
        = .ok (.reqReadEmis 0x01 0x1234 0x5678 0x9A 0xBC)
    ∧ decode params (.request .writeId) [0x01, 0b00000110, 0b00000011, 0b11101000, 0, 0x05, 0xC9, 0xB9]
        = .ok (.reqWriteId 0x01 0x05 0xC9 0xB9)
    ∧ decode params (.request .writeEmis) [0x01, 0b00000110, 0b00000011, 0b00100000, 0, 0x32, 0x09, 0x91]
        = .ok (.reqWriteEmis 0x01 0x32 0x09 0x91)
    ∧ decode params (.request .co2Query) queryFrame = .ok (.reqCo2Query ⟨0xFE, 0x03, 0, 0, 0, 0x01, 0x11, 0x22⟩)
    ∧ decode params (.request .co2Status) statusFrame = .ok (.reqCo2Status ⟨0xFE, 0x03, 0, 0x01, 0, 0x01, 0x33, 0x44⟩)
    ∧ decode params (.request .asciiRead) lineFrame = .ok .reqAsciiRead := by decide +kernel

/-- 00_scope.md R8: the ASCII request opens with the parameter's byte, and no other byte is read there. -/
theorem test_decode_ascii_ctrl :
    let p := { params with asciiCtrl := 0x05 }
    decode p (.request .asciiRead) (0x05 :: lineFrame.drop 1) = .ok .reqAsciiRead
    ∧ decode p (.request .asciiRead) lineFrame = .error .wrongAsciiRequest
    ∧ requestFrame p .asciiRead 1 0 = 0x05 :: lineFrame.drop 1 := by decide +kernel

/-- 30_encoding.md R98, R100, R102. -/
theorem test_decode_responses :
    decode params (.response .readTemp) [0x01, 0x03, 0x04, 0x00, 0xEB, 0x80, 0x01, 0x0A, 0x5A]
        = .ok (.rspReadTemp 0x01 0x03 0x04 0x00EB 0x8001 0x0A 0x5A)
    ∧ decode params (.response .readEmis) [0x01, 0x04, 0x02, 0x12, 0x5F, 0xF9, 0x08]
        = .ok (.rspReadEmis 0x01 0x04 0x02 0x12 0x5F 0xF9 0x08)
    ∧ decode params (.response .writeId) idFrame = .ok (.rspWrite 0x01 0x06 0x03 0xE8 0x00 0x05 0xC9 0xB9)
    ∧ decode params (.response .writeEmis) setEmisFrame = .ok (.rspWrite 0x01 0x06 0x03 0x20 0x00 0x32 0x09 0x91)
    ∧ decode params (.response .co2Query) [0xFE, 0x03, 0x02, 0x01, 0x90, 0x00, 0x6D, 0xBD]
        = .ok (.rspCo2 0xFE 0x03 0x02 0x0190 0x00 0x6D 0xBD)
    ∧ decode params (.response .asciiRead) [0x30, 0x0D, 0x0A] = .ok (.rspAscii [0x30, 0x0D, 0x0A]) := by decide +kernel

theorem test_decode_rejects :
    decode params .command [0x01] = .error .wrongLength
    ∧ decode params (.request .readTemp) emisFrame = .error .wrongFunction
    ∧ decode params (.request .writeId) setEmisFrame = .error .wrongRegister
    ∧ decode params (.request .asciiRead) queryFrame = .error .wrongLength
    ∧ decode params (.request .asciiRead) (List.replicate 16 0x30) = .error .wrongAsciiRequest
    ∧ decode params (.response .asciiRead) [0x30] = .error .noLineFeed
    ∧ decode params (.response .asciiRead) [0x0A, 0x0A] = .error .afterLineFeed := by decide +kernel

/-- The opcode table's numbering of bits: byte 0 in bits 7:0. -/
theorem test_table_words :
    decodeTableWord 32 0x00000002 = some (.crcByte 0)
    ∧ decodeTableWord 32 0xFFFFFFFA = some (.reservedA 0xFFFFFFF)
    ∧ decodeTableWord 64 0xB9C90500E8030601 = some (.reqWriteId 0x01 0x05 0xC9 0xB9)
    ∧ decodeTableWord 64 0 = some (.reqCo2Query ⟨0, 0, 0, 0, 0, 0, 0, 0⟩)
    ∧ decodeTableWord 72 0x5A0AD200EB00040301 = some (.rspReadTemp 0x01 0x03 0x04 0x00EB 0x00D2 0x0A 0x5A)
    ∧ decodeTableWord 56 0x08F95F00020401 = some (.rspReadEmis 0x01 0x04 0x02 0x00 0x5F 0xF9 0x08) := by
  decide +kernel

theorem test_placed_command_runs :
    gives (idle.withFetchWord 32 0x1) (fun t => t.done && t.code == .ok && t.op == 0x1) = true := by decide +kernel

/-! ## Commands, one step (95_test_vectors.md sections 2.1, 2.2 and 2.6) -/

theorem test_crc_init :
    gives (issuing { idle with crc := 0x1234 } 0x1)
      (fun t => t.crc == 0xFFFF && t.data0 == 0xFFFF && t.statusWord == 0x2 && t.irqStatus == 0b01) = true := by
  decide +kernel

theorem test_crc_byte :
    gives (issuing { idle with regValue := 0x0001 } 0x2) (fun t => t.crc == 0x807E && t.data0 == 0x807E) = true := by
  decide +kernel

theorem test_crc_byte_ignores_high_bits :
    gives (issuing { idle with regValue := 0x01FF } 0x12) (fun t => t.crc == 0x00FF) = true := by decide +kernel

theorem test_read_temp :
    gives (issuing { idle with regAddr := 1 } 0x3)
      (fun t => t.requestBytes == tempFrame && t.statusWord == 0x00010001 && t.linesWord == 0x11 && t.cnt == 500)
      = true := by decide +kernel

theorem test_read_emis :
    gives (issuing { idle with regAddr := 1 } 0x4) (fun t => t.requestBytes == emisFrame && t.explen == 7) = true := by
  decide +kernel

theorem test_write_id :
    gives (issuing { idle with regAddr := 1, regValue := 0xFF } 0x5)
      (fun t => t.requestBytes == [0x01, 0x06, 0x03, 0xE8, 0x00, 0xFF, 0x49, 0xFA] && t.explen == 8) = true := by
  decide +kernel

theorem test_write_id_out_of_range :
    gives (issuing { idle with regValue := 0x100, txlen := 8 } 0x5) (fun t => t.statusWord == 0x52 && t.txlen == 0)
      = true := by decide +kernel

theorem test_write_emis :
    gives (issuing { idle with regAddr := 5, regValue := 99 } 0x6)
      (fun t => t.requestBytes == [0x05, 0x06, 0x03, 0x20, 0x00, 0x63, 0xC9, 0xE9] && t.explen == 8) = true := by
  decide +kernel

theorem test_write_emis_check_order :
    gives (issuing { idle with regMaxatt := 0 } 0x6) (fun t => t.statusWord == 0x52 && t.phase == .idle) = true := by
  decide +kernel

theorem test_co2_query :
    gives (issuing { idle with baudSel := true } 0x7)
      (fun t => t.requestBytes == queryFrame && t.linesWord == 0x111 && t.explen == 8) = true := by decide +kernel

theorem test_co2_status :
    gives (issuing idle 0x8) (fun t => t.requestBytes == statusFrame && t.linesWord == 0x111) = true := by
  decide +kernel

theorem test_ascii_read :
    gives (issuing idle 0x9)
      (fun t => t.requestBytes == lineFrame && t.linesWord == 0x215 && t.explen == 0) = true := by decide +kernel

theorem test_zero_maxatt :
    gives (issuing { idle with regMaxatt := 0 } 0x3) (fun t => t.statusWord == 0xA2 && t.txlen == 0) = true := by
  decide +kernel

/-- Every reserved opcode ends in ILLEGAL_COMMAND. -/
theorem test_reserved :
    [0x0, 0xA, 0xB, 0xC, 0xD, 0xE, 0xF].all (fun w : Word =>
      gives (issuing idle w) (fun t => t.statusWord == 0x92 && t.op == w.setWidth 4 && t.irqStatus == 0b01))
      = true := by decide +kernel

theorem test_command_while_busy :
    gives (issuing (running .readTemp tempFrame .txFirst) 0x1)
      (fun t => t.statusWord == 0x00010005 && t.crc == 0xFFFF && t.op == 0x3 && t.phase == .flush1) = true := by
  decide +kernel

/-! ## Request frames, one step (42_transceiver.md R206) -/

theorem test_req_read_temp :
    (sending .readTemp tempFrame .txFirst 0).wireByte = some 0x01
    ∧ gives (sending .readTemp tempFrame .txFirst 0) (fun t => t.phase == .flush1 && t.txidx == 1) = true := by
  decide +kernel

/-- A byte taken in a reset cycle is transferred, and the block goes to its reset state (log entry 12). -/
theorem test_wire_byte_in_reset :
    let s := { sending .readTemp tempFrame .txFirst 0 with inputs := [{ quietCycle quietHost with rst := true }] }
    s.wireByte = some 0x01 ∧ gives s (fun t => t.phase == .idle && t.re && !t.de) = true := by decide +kernel

theorem test_req_read_emis_error :
    gives { sending .readEmis emisFrame .txRest 3 with inputs := [{ quietCycle quietHost with txErr := true }] }
      (fun t => t.phase == .eval && t.cause == .transportError && t.linesWord == 0x92 && t.rxlen == 0) = true := by
  decide +kernel

theorem test_req_write_id :
    (sending .writeId idFrame .txRest 7).wireByte = some 0xB9
    ∧ gives (sending .writeId idFrame .txRest 7) (fun t => t.phase == .flush2) = true := by decide +kernel

theorem test_req_write_emis :
    gives { running .writeEmis setEmisFrame .postwrite with rxlen := 3 }
      (fun t => t.phase == .receive && t.cnt == 20 && t.rxlen == 0 && t.re && !t.de) = true := by decide +kernel

theorem test_req_co2_query :
    gives (running .co2Query queryFrame .flush1) (fun t => t.phase == .gap && t.cnt == 1) = true := by decide +kernel

theorem test_req_co2_status :
    gives (running .co2Status statusFrame .flush2) (fun t => t.phase == .postwrite && t.cnt == 5) = true := by
  decide +kernel

theorem test_req_ascii_read :
    (sending .asciiRead lineFrame .txRest 15).wireByte = some 0x0A
    ∧ gives (sending .asciiRead lineFrame .txRest 15) (fun t => t.phase == .flush2)
    ∧ gives (sending .asciiRead lineFrame .txRest 14) (fun t => t.phase == .txRest && t.txidx == 15) := by
  decide +kernel

/-! ## Response frames, one step (95_test_vectors.md section 2.3) -/

theorem test_rsp_read_temp :
    gives (judging .readTemp tempFrame [0x02, 0x03, 0x04, 0xFF, 0x9C, 0x80, 0x00, 0x58, 0xC9])
      (fun t => t.data0 == 0xFFFFFF9C && t.data1 == 0xFFFF8000 && t.statusWord == 0x00010002) = true := by
  decide +kernel

theorem test_rsp_read_temp_corrupt :
    gives (judging .readTemp tempFrame [0x01, 0x03, 0x04, 0x00, 0xEA, 0x00, 0xD2, 0x0A, 0x5A])
      (fun t => t.faillogWord == 0x102 && t.irqStatus == 0b10 && t.linesWord == 0x11 && t.cnt == 500
        && t.statusWord == 0x00020001) = true := by decide +kernel

theorem test_rsp_read_emis :
    gives (judging .readEmis emisFrame [0x01, 0x04, 0x02, 0x12, 0xFF, 0xF5, 0xD0])
      (fun t => t.data0 == 0xFF && t.data1 == 0 && t.statusWord == 0x00010002) = true := by decide +kernel

theorem test_rsp_write_refused :
    gives (judging .writeId idFrame [0x01, 0x06, 0x03, 0xE8, 0x00, 0x06, 0x89, 0xB8])
      (fun t => t.data0 == 6 && t.statusWord == 0x00010042 && t.faillogWord == 0 && t.irqStatus == 0b01) = true := by
  decide +kernel

theorem test_rsp_write_echo :
    gives (judging .writeEmis setEmisFrame setEmisFrame) (fun t => t.data0 == 50 && t.statusWord == 0x00010002)
      = true := by decide +kernel

theorem test_rsp_co2 :
    gives (judging .co2Query queryFrame [0xFE, 0x03, 0x02, 0x01, 0x91, 0x00, 0x6D, 0xBD])
      (fun t => t.data0 == 401 && t.statusWord == 0x00010002)
    ∧ gives (judging .co2Status statusFrame [0xFE, 0x03, 0x02, 0x01, 0x91, 0x00, 0x6D, 0xBD])
      (fun t => t.data0 == 0 && t.statusWord == 0x00010002 && t.rxlen == 8) := by decide +kernel

/-- "01RSD,OK,00FA" CR LF. -/
def goodLine : List Byte :=
  [0x30, 0x31, 0x52, 0x53, 0x44, 0x2C, 0x4F, 0x4B, 0x2C, 0x30, 0x30, 0x46, 0x41, 0x0D, 0x0A]

theorem test_rsp_ascii :
    gives (judging .asciiRead lineFrame goodLine)
      (fun t => t.data0 == 250 && t.statusWord == 0x00010002 && t.rxlen == 15) = true := by decide +kernel

/-- The last attempt with a line that is too short: 95_test_vectors.md section 2.5, "ASCII short line". -/
theorem test_rsp_ascii_short :
    gives { judging .asciiRead lineFrame [0x30, 0x31, 0x52, 0x53, 0x44, 0x2C, 0x4F, 0x4B, 0x0D, 0x0A] with maxatt := 1 }
      (fun t => t.statusWord == 0x00010862 && t.faillogWord == 0x108 && t.irqStatus == 0b11) = true := by
  decide +kernel

/-! ## The host, reset and the CRC (95_test_vectors.md sections 1, 2.1, 2.7 and 2.8) -/

theorem test_crc_check_value :
    crc16 [0x31, 0x32, 0x33, 0x34, 0x35, 0x36, 0x37, 0x38, 0x39] = 0x4B37 ∧ crc16 [] = 0xFFFF ∧ crc16 [0x80] = 0xE0BE
    := by decide +kernel

theorem test_buffer_word :
    (running .readTemp tempFrame .settle).view 0x10 = 0x00000301
    ∧ (running .readTemp tempFrame .settle).view 0x11 = 0x0BC40200 := by decide +kernel

/-- "set wins": the host clears both interrupt bits in the cycle in which a command finishes. -/
theorem test_set_wins :
    gives { judging .readEmis emisFrame [0x01, 0x04, 0x02, 0x00, 0x5F, 0xF9, 0x08] with
        irqStatus := 0b01, inputs := [quietCycle (hostWrite 0x24#8 0x3)] } (fun t => t.irqStatus == 0b01) = true := by
  decide +kernel

theorem test_reset_of_running :
    gives { running .readTemp tempFrame .txRest with inputs := [{ quietCycle quietHost with rst := true }] }
      (fun t => t.statusWord == 0 && t.linesWord == 0x2 && t.crc == 0xFFFF && t.regMaxatt == 1) = true := by
  decide +kernel

/-- 95_test_vectors.md: the delays for two clocks. -/
theorem test_delays :
    { params with clkHz := 1500 }.nSettle .crc = 750 ∧ { params with clkHz := 1500 }.nGap .crc = 2
    ∧ { params with clkHz := 1500 }.nPost .ascii = 8 ∧ { params with clkHz := 32768 }.nPost .fixed = 164 := by
  decide +kernel

/-! ## States that meet the statements' hypotheses, clause by clause and at the ends of their ranges -/

/-- A state with other inputs scheduled. -/
def withInputs (s : State) (l : List CycleIn) : State := { s with inputs := l }

/-- A cycle without a host access, with chosen transport signals. -/
def transport (ready idle err valid rxErr : Bool) (b : Byte) : CycleIn :=
  { quietCycle quietHost with
    txReady := ready, txIdle := idle, txErr := err, rxValid := valid, rxErr := rxErr, rxData := b }

/-- A cycle in which the host reads a word. -/
def hostRead (addr : Byte) : CycleIn :=
  quietCycle { en := true, we := false, addr := addr, width := .word, wdata := 0 }

theorem witness_CrcResidueIsZero : 2 ≤ [0x00#8, 0x00#8].length ∧ crcOk [0xFF#8, 0xFF#8] = true := by decide +kernel

theorem witness_CrcDetectsSingleBitErrors : 1 < (withCrc []).length ∧ 7 < 8 := by decide

theorem witness_DecodeOfEncode :
    (Instr.rspAscii [0x0A]).encodable = true ∧ DecodeContext.response .asciiRead ∈ (Instr.rspAscii [0x0A]).contexts
    ∧ (Instr.rspWrite 0 0 0 0 0 0 0 0).encodable = true
    ∧ DecodeContext.response .writeEmis ∈ (Instr.rspWrite 0 0 0 0 0 0 0 0).contexts := by decide

theorem witness_EncodeOfDecode : decode params (.request .writeId) idFrame = .ok (.reqWriteId 0x01 0x05 0xC9 0xB9) := by
  decide +kernel

theorem witness_OpcodeMapAndSampleWords : params.asciiCtrl = 0x02 := rfl

theorem witness_RequestFramesAreWellFormed :
    rangeFails .writeEmis 1 = false ∧ rangeFails .writeEmis 99 = false ∧ rangeFails .writeId 0xFF = false
    ∧ rangeFails .readTemp 0xFFFF = false := by decide

theorem witness_CrcInitResult : idle.phase = .idle ∧ (running .readTemp tempFrame .settle).phase ≠ .idle := by
  decide +kernel

theorem witness_CrcByteResult :
    { idle with regValue := 0xFFFF }.phase = .idle ∧ (running .readTemp tempFrame .eval).phase ≠ .idle := by
  decide +kernel

theorem witness_ReservedOpcodeFinishesIllegal :
    isReserved (.reserved0 0) = true ∧ commandOp (.reserved0 0) = some 0x0 ∧ isReserved (.reservedF 0xFFFFFFF) = true
    ∧ commandOp (.reservedF 0xFFFFFFF) = some 0xF ∧ idle.phase = .idle := by decide +kernel

theorem witness_TransactionAccepted :
    (let s := { idle with regValue := 99, regMaxatt := 1 };
      transactionOf (.writeEmis 0) = some .writeEmis ∧ s.phase = .idle
      ∧ (TransOp.writeEmis = .writeId → s.regValue.toNat ≤ 0x00FF)
      ∧ (TransOp.writeEmis = .writeEmis → 1 ≤ s.regValue.toNat ∧ s.regValue.toNat ≤ 99) ∧ s.regMaxatt ≠ 0)
    ∧ (let s := { idle with regValue := 0xFF, regMaxatt := 255 };
      transactionOf (.writeId 0) = some .writeId ∧ s.phase = .idle
      ∧ (TransOp.writeId = .writeId → s.regValue.toNat ≤ 0x00FF)
      ∧ (TransOp.writeId = .writeEmis → 1 ≤ s.regValue.toNat ∧ s.regValue.toNat ≤ 99) ∧ s.regMaxatt ≠ 0)
    ∧ (let s := { idle with regValue := 0xFFFF };
      transactionOf (.asciiRead 0) = some .asciiRead ∧ s.phase = .idle
      ∧ (TransOp.asciiRead = .writeId → s.regValue.toNat ≤ 0x00FF)
      ∧ (TransOp.asciiRead = .writeEmis → 1 ≤ s.regValue.toNat ∧ s.regValue.toNat ≤ 99) ∧ s.regMaxatt ≠ 0) := by
  decide +kernel

theorem witness_WriteOutOfRangeRefused :
    ({ idle with regValue := 0x100 }.phase = .idle ∧ 0x00FF < { idle with regValue := 0x100 }.regValue.toNat)
    ∧ (idle.phase = .idle ∧ (idle.regValue.toNat < 1 ∨ 99 < idle.regValue.toNat))
    ∧ ({ idle with regValue := 100 }.phase = .idle
      ∧ ({ idle with regValue := 100 }.regValue.toNat < 1 ∨ 99 < { idle with regValue := 100 }.regValue.toNat))
    ∧ { idle with regValue := 0xFF }.regValue.toNat ≤ 0x00FF
    ∧ (1 ≤ { idle with regValue := 1 }.regValue.toNat ∧ { idle with regValue := 99 }.regValue.toNat ≤ 99) := by
  decide +kernel

theorem witness_ZeroMaxattRefused :
    let s := { idle with regValue := 1, regMaxatt := 0 }
    transactionOf (.writeEmis 0) = some .writeEmis ∧ s.phase = .idle
    ∧ (TransOp.writeEmis = .writeId → s.regValue.toNat ≤ 0x00FF)
    ∧ (TransOp.writeEmis = .writeEmis → 1 ≤ s.regValue.toNat ∧ s.regValue.toNat ≤ 99) ∧ s.regMaxatt = 0 := by
  decide +kernel

theorem witness_CommandWhileBusySetsOverrun :
    commandOp (.crcInit 0) = some 0x1 ∧ (running .readTemp tempFrame .eval).phase ≠ .idle := by decide +kernel

theorem witness_RequestWaitsOutItsDelays :
    isRequest .reqAsciiRead = true
    ∧ (let s := { running .asciiRead lineFrame .settle with cnt := 2 }; s.phase = .settle ∧ 1 < s.cnt)
    ∧ (let s := { running .asciiRead lineFrame .gap with cnt := 2 }; s.phase = .gap ∧ 1 < s.cnt)
    ∧ (let s := { running .asciiRead lineFrame .postwrite with cnt := 2 }; s.phase = .postwrite ∧ 1 < s.cnt)
    ∧ (let s := running .asciiRead lineFrame .settle; s.phase = .settle ∧ s.cnt ≤ 1)
    ∧ (let s := running .asciiRead lineFrame .gap; s.phase = .gap ∧ s.cnt ≤ 1)
    ∧ (let s := running .asciiRead lineFrame .postwrite; s.phase = .postwrite ∧ s.cnt ≤ 1) := by decide +kernel

theorem witness_RequestBytesAreHandedOver :
    let i := Instr.reqReadTemp 0x01 0 2 0xC4 0x0B
    isRequest i = true
    ∧ (let s := sending .readTemp tempFrame .txFirst 0;
      s.now.txErr = false ∧ s.phase = .txFirst ∧ s.now.txReady = true)
    ∧ (let s := sending .readTemp tempFrame .txRest 7;
      s.now.txErr = false ∧ s.phase = .txRest ∧ s.now.txReady = true ∧ s.txidx.toNat + 1 = (encode params i).length)
    ∧ (let s := sending .readTemp tempFrame .txRest 6;
      s.now.txErr = false ∧ s.phase = .txRest ∧ s.now.txReady = true ∧ s.txidx.toNat + 1 < (encode params i).length)
    ∧ (let s := withInputs (sending .readTemp tempFrame .txRest 1) [transport false true false false false 0];
      s.now.txErr = false ∧ s.phase = .txRest ∧ s.now.txReady = false)
    ∧ (let s := withInputs (sending .readTemp tempFrame .txFirst 0) [transport false true false false false 0];
      s.now.txErr = false ∧ s.phase = .txFirst ∧ s.now.txReady = false) := by decide +kernel

theorem witness_RequestFlushWaitsForIdle :
    isRequest (.reqCo2Query ⟨0, 0, 0, 0, 0, 0, 0, 0⟩) = true
    ∧ (let s := running .co2Query queryFrame .flush1; s.now.txErr = false ∧ s.phase = .flush1 ∧ s.now.txIdle = true)
    ∧ (let s := running .co2Query queryFrame .flush2; s.now.txErr = false ∧ s.phase = .flush2 ∧ s.now.txIdle = true)
    ∧ (let s := withInputs (running .co2Query queryFrame .flush2) [transport true false false false false 0];
      s.now.txErr = false ∧ s.phase = .flush2 ∧ s.now.txIdle = false)
    ∧ (let s := withInputs (running .co2Query queryFrame .flush1) [transport true false false false false 0];
      s.now.txErr = false ∧ s.phase = .flush1 ∧ s.now.txIdle = false) := by decide +kernel

theorem witness_TransmitErrorAborts :
    isRequest (.reqWriteEmis 0x01 50 0x09 0x91) = true
    ∧ [Phase.txFirst, .flush1, .txRest, .flush2].all (fun p =>
      let s := withInputs (running .writeEmis setEmisFrame p) [transport true true true false false 0]
      offering s.phase && s.now.txErr) = true := by decide +kernel

theorem witness_ReadTempResponsePublished :
    let s := judging .readTemp tempFrame [0x02, 0x03, 0x04, 0xFF, 0x9C, 0x80, 0x00, 0x58, 0xC9]
    s.phase = .eval ∧ s.cause = .ok
    ∧ crcMatches [0x02, 0x03, 0x04, hiByte 0xFF9C, loByte 0xFF9C, hiByte 0x8000, loByte 0x8000] 0x58 0xC9 := by
  unfold crcMatches; decide +kernel

theorem witness_ReadEmisResponsePublished :
    let s := judging .readEmis emisFrame [0x01, 0x04, 0x02, 0x12, 0xFF, 0xF5, 0xD0]
    s.phase = .eval ∧ s.cause = .ok ∧ crcMatches [0x01, 0x04, 0x02, 0x12, 0xFF] 0xF5 0xD0 := by
  unfold crcMatches; decide +kernel

theorem witness_WriteResponseJudgedByEcho :
    let s := { judging .writeId idFrame [0x01, 0x06, 0x03, 0xE8, 0x00, 0x06, 0x89, 0xB8] with txlen := 6 }
    s.phase = .eval ∧ s.cause = .ok ∧ 5 < s.txlen.toNat
    ∧ crcMatches [0x01, 0x06, 0x03, 0xE8, 0x00, 0x06] 0x89 0xB8 := by
  unfold crcMatches; decide +kernel

theorem witness_Co2ResponsePublished :
    (let s := judging .co2Query queryFrame [0, 0, 0, 0, 0, 0, 0, 0]; s.phase = .eval ∧ s.cause = .ok ∧ s.op = 0x7)
    ∧ (let s := judging .co2Status statusFrame [0, 0, 0, 0, 0, 0, 0, 0]; s.phase = .eval ∧ s.cause = .ok ∧ s.op = 0x8)
    := by decide +kernel

/-- The value's four characters end exactly where the line ends. -/
theorem witness_AsciiResponsePublished :
    let line := goodLine.take 13
    let s := judging .asciiRead lineFrame line
    s.phase = .eval ∧ s.cause = .ok ∧ hexAt line s.par.asciiValOffset := by
  unfold hexAt; decide +kernel

/-- A full RXBUF without a line feed, its value in the last four bytes. -/
theorem witness_AsciiResponsePublished_step :
    let s := { judging .asciiRead lineFrame (List.replicate 60 0x2C ++ [0x30, 0x30, 0x46, 0x41]) with
      par := { params with asciiValOffset := 60 } }
    s.phase = .eval ∧ s.cause = .ok ∧ s.op = 0x9 ∧ s.now.rst = false ∧ s.now.host.whole = true
    ∧ s.rxlen.toNat ≤ s.rxbuf.length ∧ (∃ u, s.hostPart = .next u) ∧ hexAt s.responseBytes s.par.asciiValOffset := by
  refine ⟨rfl, rfl, rfl, rfl, rfl, by decide +kernel, ⟨_, rfl⟩, ?_⟩
  unfold hexAt; decide +kernel

theorem witness_HexDigitValues : 9 < 10 ∧ 5 < 6 ∧ isHex 0x66 = true := by decide

theorem witness_CorruptResponseFailsAttempt :
    let s := judging .readTemp tempFrame [0x01, 0x03, 0x04, 0x00, 0xEA, 0x00, 0xD2, 0x0A, 0x5A]
    s.phase = .eval ∧ s.cause = .ok
    ∧ ¬ crcMatches [0x01, 0x03, 0x04, hiByte 0x00EA, loByte 0x00EA, hiByte 0x00D2, loByte 0x00D2] 0x0A 0x5A
    ∧ ¬ crcMatches [0x01, 0x04, 0x02, 0x00, 0x5F] 0x08 0xF9
    ∧ ¬ crcMatches [0x01, 0x06, 0x03, 0xE8, 0x00, 0x06] 0xC9 0xB9 := by
  unfold crcMatches; decide +kernel

/-- One character too few, and a character that is not hexadecimal. -/
theorem witness_MalformedLineFailsAttempt :
    (let line := goodLine.take 12; let s := judging .asciiRead lineFrame line
      s.phase = .eval ∧ s.cause = .ok ∧ ¬ hexAt line s.par.asciiValOffset)
    ∧ (let line := goodLine.set 11 0x47; let s := judging .asciiRead lineFrame line
      s.phase = .eval ∧ s.cause = .ok ∧ ¬ hexAt line s.par.asciiValOffset) := by
  unfold hexAt; decide +kernel

/-- A full RXBUF without a line feed. -/
theorem witness_MalformedLineFailsAttempt_step :
    let s := judging .asciiRead lineFrame (List.replicate 64 0x2C)
    s.phase = .eval ∧ s.cause = .ok ∧ s.op = 0x9 ∧ s.now.rst = false ∧ s.now.host.whole = true
    ∧ s.rxlen.toNat ≤ s.rxbuf.length ∧ (∃ u, s.hostPart = .next u)
    ∧ ¬ hexAt s.responseBytes s.par.asciiValOffset := by
  refine ⟨rfl, rfl, rfl, rfl, rfl, by decide +kernel, ⟨_, rfl⟩, ?_⟩
  unfold hexAt; decide +kernel

theorem witness_ExchangeCauseBeatsValidation :
    let s := { judging .readTemp tempFrame [] with cause := .shortRead }
    isResponse (.rspReadTemp 0 0 0 0 0 0 0) = true ∧ s.phase = .eval ∧ s.cause ≠ .ok
    ∧ TransOp.ofCode s.op = some .readTemp ∧ s.now.rst = false ∧ s.now.host.whole = true
    ∧ ∃ u, s.hostPart = .next u :=
  ⟨rfl, rfl, by decide, rfl, rfl, rfl, _, rfl⟩

theorem witness_FramesOutsideTheirPhases :
    isRequest .reqAsciiRead = true ∧ idle.phase = .idle
    ∧ (running .readTemp tempFrame .receive).phase = .receive ∧ (judging .readTemp tempFrame []).phase = .eval
    ∧ isResponse (.rspReadTemp 0 0 0 0 0 0 0) = true ∧ (running .readTemp tempFrame .postwrite).phase ≠ .eval := by
  decide +kernel

theorem witness_StepRunsDecodedInstruction_command :
    (let s := issuing idle 0x2;
      s.now.rst = false ∧ s.now.host.whole = true ∧ s.commandWrite = true
      ∧ decode params .command s.commandBytes = .ok (.crcByte 0) ∧ s.phase = .idle)
    ∧ (let s := issuing (running .readTemp tempFrame .settle) 0x2;
      s.now.rst = false ∧ s.now.host.whole = true ∧ s.commandWrite = true
      ∧ decode params .command s.commandBytes = .ok (.crcByte 0)) := by decide +kernel

theorem witness_StepRunsDecodedInstruction_frame :
    (let s := sending .readTemp tempFrame .txFirst 0;
      s.now.rst = false ∧ s.now.host.whole = true ∧ (∃ t, s.hostPart = .next t)
      ∧ TransOp.ofCode s.op = some .readTemp ∧ s.phase.transmitting = true
      ∧ decode params (.request .readTemp) s.requestBytes = .ok (.reqReadTemp 0x01 0 2 0xC4 0x0B))
    ∧ (let s := judging .readEmis emisFrame [0x01, 0x04, 0x02, 0x00, 0x5F, 0xF9, 0x08];
      s.now.rst = false ∧ s.now.host.whole = true ∧ (∃ t, s.hostPart = .next t)
      ∧ TransOp.ofCode s.op = some .readEmis ∧ s.phase = .eval ∧ s.cause = .ok
      ∧ decode params (.response .readEmis) s.responseBytes = .ok (.rspReadEmis 0x01 0x04 0x02 0x00 0x5F 0xF9 0x08)) :=
  ⟨⟨rfl, rfl, ⟨_, rfl⟩, rfl, rfl, rfl⟩, ⟨rfl, rfl, ⟨_, rfl⟩, rfl, rfl, rfl, rfl⟩⟩

theorem witness_StepFollowsPhaseTable :
    let s := running .readTemp tempFrame .receive
    s.now.rst = false ∧ s.now.host.whole = true ∧ s.txlen.toNat ≤ s.txbuf.length ∧ s.rxlen.toNat ≤ s.rxbuf.length
    ∧ ∃ t, s.hostPart = .next t :=
  ⟨rfl, rfl, by decide +kernel, by decide +kernel, _, rfl⟩

theorem witness_StepStopsOnNarrowAccessAlone_completes :
    (withInputs idle [{ quietCycle quietHost with rst := true }]).now.rst = true
    ∧ (withInputs idle [hostRead 0x10]).now.host.whole = true := by decide +kernel

theorem witness_StepStopsOnNarrowAccessAlone_refuses :
    let s := withInputs idle [quietCycle { en := true, we := false, addr := 0x10, width := .half, wdata := 0 }]
    s.now.rst = false ∧ s.now.host.en = true ∧ s.now.host.width ≠ .word := by decide +kernel

theorem witness_ResetEdge :
    (withInputs (running .readTemp tempFrame .settle) [{ quietCycle quietHost with rst := true }]).now.rst = true := rfl

/-- The first and the last of the offsets each clause names. -/
theorem witness_ResetRegisterReads :
    (0x14 ≤ 0x14 ∧ 0x14 < 0x20) ∧ (0x14 ≤ 0x1F ∧ 0x1F < 0x20) ∧ (0x30 ≤ 0x30 ∧ 0x30 < 0x40) ∧ (0x30 ≤ 0x3F ∧ 0x3F < 0x40)
    := by decide

/-- A write to every word of the window meets the statement's hypotheses; the words' numbers reach every clause. -/
theorem witness_HostWriteTable :
    [0x04, 0x08, 0x0C, 0x1C, 0x24, 0x28, 0x10, 0xFC].all (fun a : Byte =>
      [idle, running .readTemp tempFrame .gap].all (fun before =>
        let s := writing before a 0xFFFFFFFF
        decide (s.phase = before.phase ∧ s.phase ≠ .eval ∧ s.now.rst = false ∧ s.now.host.en = true
          ∧ s.now.host.we = true ∧ s.now.host.width = .word ∧ s.now.host.wordIndex.toNat ≠ 0))) = true
    ∧ [0x04, 0x08, 0x0C, 0x1C, 0x24, 0x28, 0x10, 0xFC].map (fun a : Byte =>
      (writing idle a 0xFFFFFFFF).now.host.wordIndex.toNat) = [1, 2, 3, 7, 9, 10, 4, 63] := by decide +kernel

theorem witness_HostWriteTable_no_write :
    (let s := withInputs idle [hostRead 0x10];
      s.now.host.we = false ∧ s.phase = .idle ∧ s.now.rst = false ∧ s.now.host.whole = true)
    ∧ (running .readTemp tempFrame .gap).now.host.en = false := by decide +kernel

/-- The unmapped words at both ends of their ranges. -/
theorem witness_RegisterViews :
    (let k : BitVec 6 := 0x14; 0x50 ≤ 4 * k.toNat) ∧ (let k : BitVec 6 := 0x1F; 4 * k.toNat < 0x80)
    ∧ (let k : BitVec 6 := 0x30; 0x80 + idle.par.rxbufBytes ≤ 4 * k.toNat)
    ∧ (let k : BitVec 6 := 0x3F; 0x80 + idle.par.rxbufBytes ≤ 4 * k.toNat) := by decide +kernel

theorem witness_ReadHasNoSideEffect :
    let s := withInputs (judging .readEmis emisFrame [0x01, 0x04, 0x02, 0x00, 0x5F, 0xF9, 0x08]) [hostRead 0x24]
    s.now.rst = false ∧ s.now.host.en = true ∧ s.now.host.we = false ∧ s.now.host.width = .word := by decide +kernel

/-- The last byte a length covers, in the last word of each buffer. -/
theorem witness_BufferWordLanes :
    (let s := running .asciiRead lineFrame .receive; 3 < 4 ∧ 3 < 4 ∧ 4 * 3 + 3 < s.txlen.toNat)
    ∧ (let s := { running .asciiRead lineFrame .receive with rxlen := 64 };
      3 < 4 ∧ s.par.rxbufBytes ≤ 128 ∧ 4 * 15 < s.par.rxbufBytes ∧ 4 * 15 + 3 < s.rxlen.toNat) := by decide +kernel

theorem witness_OutputsOfCycle : ∃ t, step (sending .readTemp tempFrame .txRest 7) = .next t
    ∧ (sending .readTemp tempFrame .txRest 7).txidx.toNat < (sending .readTemp tempFrame .txRest 7).txlen.toNat :=
  ⟨_, rfl, by decide +kernel⟩

/-- A state in the middle of an exchange, which the witnesses of the invariants share. -/
def midway : State := running .readTemp tempFrame .receive

theorem witness_StepKeepsLines : midway.LinesInv ∧ ∃ t, step midway = .next t := ⟨⟨rfl, rfl⟩, _, rfl⟩

theorem witness_StepKeepsResults : midway.ResultInv ∧ ∃ t, step midway = .next t :=
  ⟨by constructor <;> decide +kernel, _, rfl⟩

theorem witness_StepKeepsAttempts : midway.AttemptInv ∧ ∃ t, step midway = .next t :=
  ⟨by constructor <;> decide +kernel, _, rfl⟩

theorem midway_requestInv : midway.RequestInv :=
  fun _ => ⟨.readTemp, rfl, by decide +kernel, rfl, rfl, rfl, rfl⟩

theorem witness_StepKeepsRequest : midway.RequestInv ∧ ∃ t, step midway = .next t := ⟨midway_requestInv, _, rfl⟩

theorem witness_StepKeepsBuffers : midway.BufferInv ∧ ∃ t, step midway = .next t :=
  ⟨by constructor <;> decide +kernel, _, rfl⟩

theorem witness_StepKeepsCounter : midway.CounterInv ∧ ∃ t, step midway = .next t :=
  ⟨by constructor <;> decide +kernel, _, rfl⟩

theorem witness_PhaseOrder : midway.RequestInv ∧ midway.now.rst = false ∧ ∃ t, step midway = .next t :=
  ⟨midway_requestInv, rfl, _, rfl⟩

theorem witness_IdleIsReachedByFinishing :
    let s := judging .readEmis emisFrame [0x01, 0x04, 0x02, 0x00, 0x5F, 0xF9, 0x08]
    s.now.rst = false ∧ s.phase ≠ .idle ∧ ∃ t, step s = .next t ∧ t.phase = .idle :=
  ⟨rfl, by decide +kernel, _, rfl, by decide +kernel⟩

theorem witness_CrcRegisterWriters : ∃ t, step (issuing idle 0x2) = .next t ∧ t.crc ≠ (issuing idle 0x2).crc :=
  ⟨_, rfl, by decide +kernel⟩

theorem witness_HostCannotDisturbCommand :
    midway.phase ≠ .idle ∧ midway.now.rst = false ∧ midway.now.host.whole = true
    ∧ (hostWrite 0x00 0x1).whole = true ∧ (∃ t, step midway = .next t)
    ∧ ∃ u, step (withNow midway { midway.now with host := hostWrite 0x00 0x1 }) = .next u :=
  ⟨by decide +kernel, rfl, rfl, rfl, ⟨_, rfl⟩, _, rfl⟩

theorem witness_InputsOutsideTheirPhases :
    (idle.phase ≠ .receive ∧ (withInputs idle [quietCycle quietHost]).now.rst = false)
    ∧ (offering midway.phase = false ∧ midway.now.rst = false) := by decide +kernel

/-- Every clause of the statement, at its boundary counts. -/
theorem witness_ReceiveCycle :
    let s := running .readTemp tempFrame .receive
    let l := running .asciiRead lineFrame .receive
    (s.phase = .receive ∧ s.now.rst = false ∧ s.now.host.whole = true ∧ ∃ u, s.hostPart = .next u)
    ∧ (withInputs s [transport true true false true true 0x55]).now.rxErr = true
    ∧ (s.now.rxErr = false ∧ s.now.rxValid = false ∧ 1 < { s with cnt := 2 }.cnt ∧ s.cnt ≤ 1)
    ∧ (let b := (withInputs s [transport true true false true false 0x55]).now;
      b.rxErr = false ∧ b.rxValid = true ∧ s.explen ≠ 0 ∧ { s with rxlen := 8 }.rxlen + 1 = s.explen
      ∧ s.rxlen + 1 ≠ s.explen)
    ∧ (l.phase = .receive ∧ l.now.rst = false ∧ l.now.host.whole = true ∧ (∃ u, l.hostPart = .next u)
      ∧ l.explen = 0)
    ∧ (let b := (withInputs l [transport true true false true false 0x0A]).now;
      b.rxErr = false ∧ b.rxValid = true ∧ b.rxData = 0x0A)
    ∧ (let b := (withInputs l [transport true true false true false 0x0B]).now;
      b.rxErr = false ∧ b.rxValid = true ∧ b.rxData ≠ 0x0A ∧ 1 < { l with cnt := 2 }.cnt ∧ l.cnt ≤ 1) :=
  ⟨⟨rfl, rfl, rfl, _, rfl⟩, rfl, by decide +kernel, by decide +kernel, ⟨rfl, rfl, rfl, ⟨_, rfl⟩, rfl⟩,
    by decide +kernel, by decide +kernel⟩

theorem witness_InterruptSetWins :
    let s := judging .readEmis emisFrame [0x01, 0x04, 0x02, 0x00, 0x5F, 0xF9, 0x08]
    s.BufferInv ∧ s.phase = .eval ∧ TransOp.ofCode s.op = some .readEmis ∧ s.now.rst = false
    ∧ ∃ t, step s = .next t :=
  ⟨by constructor <;> decide +kernel, rfl, rfl, rfl, _, rfl⟩

theorem witness_CountedDelayIsExact :
    (let s := { running .readTemp tempFrame .postwrite with cnt := 0 + 1 };
      (s.phase = .settle ∨ s.phase = .gap ∨ s.phase = .postwrite) ∧ s.cnt = 0 + 1 ∧ s.plainFor (0 + 1))
    ∧ (let s := withInputs { running .readTemp tempFrame .settle with cnt := 1 + 1 } [hostRead 0, quietCycle quietHost];
      (s.phase = .settle ∨ s.phase = .gap ∨ s.phase = .postwrite) ∧ s.cnt = 1 + 1 ∧ s.plainFor (1 + 1)) := by
  unfold State.plainFor; decide +kernel

theorem witness_ReceiveIsBounded :
    let s := withInputs { midway with cnt := 1 + 1 } [quietCycle quietHost, quietCycle quietHost]
    s.phase = .receive ∧ s.cnt = 1 + 1 ∧ s.plainFor (1 + 1) := by
  unfold State.plainFor; decide +kernel

theorem witness_TransmitHangIsAdmitted :
    (let s := withInputs (sending .readTemp tempFrame .txRest 7)
        (List.replicate 3 (transport false true false true true 1));
      s.plainFor 3 ∧ s.phase = .txRest ∧ ∀ i ∈ s.inputs.take 3, i.txReady = false ∧ i.txErr = false)
    ∧ (let s := withInputs (sending .readTemp tempFrame .flush2 7)
        (List.replicate 3 (transport true false false true true 1));
      s.plainFor 3 ∧ s.phase = .flush2 ∧ ∀ i ∈ s.inputs.take 3, i.txIdle = false ∧ i.txErr = false) := by
  unfold State.plainFor; decide +kernel

/-- A READ_EMIS at the start of its settle delay, with a receive timeout of exactly the response's length. -/
def settling : State :=
  { running .readEmis emisFrame .settle with par := { params with rxTimeout := 7 }, cnt := 500 }

theorem settling_requestInv (l : List CycleIn) : (withInputs settling l).RequestInv :=
  have h : settling.requestBytes = requestFrame settling.par .readEmis settling.addr settling.value := by
    decide +kernel
  fun _ => ⟨.readEmis, rfl, h, rfl, rfl, rfl, rfl⟩

theorem settling_bufferInv (l : List CycleIn) : (withInputs settling l).BufferInv := by
  constructor <;> simp only [withInputs] <;> decide +kernel

theorem settling_counterInv (l : List CycleIn) : (withInputs settling l).CounterInv := by
  constructor <;> simp only [withInputs] <;> decide +kernel

theorem witness_IdealExchangeDuration :
    let resp : List Byte := [0x01, 0x04, 0x02, 0x00, 0x5F, 0xF9, 0x08]
    let l := List.replicate (transmitCycles settling.par .readEmis) silentCycle ++ resp.map deliver ++ [silentCycle]
    let s := withInputs settling l
    s.RequestInv ∧ s.BufferInv ∧ s.CounterInv ∧ s.phase = .settle ∧ s.cnt = s.par.nSettle s.variant
    ∧ TransOp.ofCode s.op = some .readEmis ∧ TransOp.readEmis ≠ .asciiRead
    ∧ resp.length = (responseLength .readEmis).toNat ∧ resp.length ≤ s.par.rxTimeout
    ∧ s.inputs = List.replicate (transmitCycles s.par .readEmis) silentCycle ++ resp.map deliver ++ [silentCycle] :=
  ⟨settling_requestInv _, settling_bufferInv _, settling_counterInv _, rfl, by decide +kernel, rfl, by decide, rfl,
    by decide +kernel, rfl⟩

theorem witness_SilentBusExhausts :
    let a := transmitCycles settling.par .readEmis + settling.par.rxTimeout + 1
    let s := withInputs settling (List.replicate (settling.maxatt.toNat * a) silentCycle)
    s.RequestInv ∧ s.BufferInv ∧ s.CounterInv ∧ s.phase = .settle ∧ s.cnt = s.par.nSettle s.variant
    ∧ TransOp.ofCode s.op = some .readEmis ∧ s.attempt = 1 ∧ 1 ≤ s.maxatt.toNat
    ∧ s.inputs = List.replicate (s.maxatt.toNat * (transmitCycles s.par .readEmis + s.par.rxTimeout + 1)) silentCycle :=
  ⟨settling_requestInv _, settling_bufferInv _, settling_counterInv _, rfl, by decide +kernel, rfl, rfl,
    by decide +kernel, rfl⟩

end Sys2Proof.Tests
end

/-! ## The step over a fetched frame

Decoding loses nothing, so putting a fetched frame back into its buffer changes nothing, and the sequencer's part of
a cycle is the phase table (log entry 6). -/

namespace Sys2Proof.Machine

open Sys2Proof.Claims

/-- A request that decodes is what its instruction encodes to (30_encoding.md R96, R97, R99, R101). -/
theorem encode_of_decodeRequest {p : Params} {op : TransOp} {bs : List Byte} {i : Instr}
    (h : decodeRequest p op bs = .ok i) : encode p i = bs := by
  cases op <;> simp only [decodeRequest, decodeReadRequest, decodeWriteRequest, decodeLiteralRequest,
    decodeAsciiRequest] at h <;> (repeat' split at h) <;> cases h <;> simp_all [encode, bigEndian, Frame8.toList]

/-- A response that decodes is what its instruction encodes to (30_encoding.md R98, R100, R102). -/
theorem encode_of_decodeResponse {p : Params} {op : TransOp} {bs : List Byte} {i : Instr}
    (h : decodeResponse op bs = .ok i) : encode p i = bs := by
  cases op <;> simp only [decodeResponse, decodeTempResponse, decodeEmisResponse, decodeWriteResponse,
    decodeCo2Response, decodeAsciiResponse] at h <;> (repeat' split at h) <;> cases h <;> simp [encode, bigEndian]

theorem loadRequest_requestBytes {s : State} (h : s.txlen.toNat ≤ s.txbuf.length) :
    s.loadRequest s.requestBytes = s := by
  have hbuf : loadPrefix s.requestBytes s.txbuf = s.txbuf := loadPrefix_take _ _ h
  have hlen : BitVec.ofNat 5 s.requestBytes.length = s.txlen := by simp [State.requestBytes, Nat.min_eq_left h]
  rw [State.loadRequest, hbuf, hlen]

theorem loadResponse_responseBytes {s : State} (h : s.rxlen.toNat ≤ s.rxbuf.length) :
    s.loadResponse s.responseBytes = s := by
  have hbuf : loadPrefix s.responseBytes s.rxbuf = s.rxbuf := loadPrefix_take _ _ h
  have hlen : BitVec.ofNat 8 s.responseBytes.length = s.rxlen := by simp [State.responseBytes, Nat.min_eq_left h]
  rw [State.loadResponse, hbuf, hlen]

/-- Sending the frame that stands in TXBUF is the cycle of the phase table. -/
theorem sendFrame_requestBytes {s : State} (h : s.txlen.toNat ≤ s.txbuf.length) (ht : s.phase.transmitting = true) :
    s.sendFrame s.requestBytes = s.sequencerCycle := by
  rw [State.sendFrame, if_pos ht, loadRequest_requestBytes h]
  cases hp : s.phase <;> simp_all [State.sequencerCycle, Phase.transmitting]

/-- Judging the frame that stands in RXBUF is the EVAL cycle. -/
theorem judgeFrame_responseBytes {s : State} {op : TransOp} (h : s.rxlen.toNat ≤ s.rxbuf.length)
    (he : s.phase = .eval) (ho : TransOp.ofCode s.op = some op) :
    s.judgeFrame op s.responseBytes = s.sequencerCycle := by
  simp only [State.judgeFrame, State.sequencerCycle, State.evalBuffer, he, ho, if_true, loadResponse_responseBytes h]

/-- A register write leaves what the sequencer owns (20_memory.md R73). -/
theorem sequencerView_writeReg (s : State) (r : Reg) (w : Word) : sequencerView (s.writeReg r w) = sequencerView s := by
  cases r <;> rfl

@[simp] theorem State.writeReg_par (s : State) (r : Reg) (w : Word) : (s.writeReg r w).par = s.par := by
  cases r <;> rfl

/-- While a command runs, the host's part leaves what the sequencer owns, and the parameters. -/
theorem hostPart_busy_view {s t : State} (hp : s.phase ≠ .idle) (h : s.hostPart = .next t) :
    sequencerView t = sequencerView s ∧ t.par = s.par := by
  rcases hostPart_busy hp h with rfl | rfl | rfl
  · exact ⟨rfl, rfl⟩
  · exact ⟨sequencerView_writeReg .., State.writeReg_par ..⟩
  · exact ⟨rfl, rfl⟩

/-- While a command runs and the lengths fit the buffers, the sequencer's part is one cycle of the phase table. -/
theorem sequencerPart_busy {s t : State} (hp : s.phase ≠ .idle) (htx : s.txlen.toNat ≤ s.txbuf.length)
    (hrx : s.rxlen.toNat ≤ s.rxbuf.length) (h : s.hostPart = .next t) :
    s.sequencerPart t = .next t.sequencerCycle := by
  obtain ⟨hview, hpar⟩ := hostPart_busy_view hp h
  simp only [sequencerView, Prod.mk.injEq] at hview
  have hreq : t.requestBytes = s.requestBytes := by simp [State.requestBytes, hview]
  have hrsp : t.responseBytes = s.responseBytes := by simp [State.responseBytes, hview]
  obtain ⟨u, hu⟩ := sequencerPart_next s t
  rw [hu]
  rcases sequencerPart_cases (by simp [hview]) hpar hu with
    ⟨hidle, -⟩ | ⟨-, rfl⟩ | ⟨op, i, -, ht, hd, rfl⟩ | ⟨op, i, hop, he, -, hd, rfl⟩
  · exact absurd hidle hp
  · rfl
  · rw [encode_of_decodeRequest hd, ← hreq, sendFrame_requestBytes (by simpa [hview] using htx)
      (by simpa [hview] using ht)]
  · rw [encode_of_decodeResponse hd, ← hrsp,
      judgeFrame_responseBytes (by simpa [hview] using hrx) (by simpa [hview] using he) (by simpa [hview] using hop)]

/-- While idle the sequencer's part does nothing. -/
theorem sequencerPart_idle {s t : State} (hp : s.phase = .idle) : s.sequencerPart t = .next t := by
  simp [State.sequencerPart, hp]

end Sys2Proof.Machine

/-! ## The buffers and their lengths -/

namespace Sys2Proof.Machine

/-- What the sizes and lengths of `State.BufferInv` speak of. -/
def State.buffers (s : State) := (s.par, s.txbuf, s.txlen, s.rxbuf, s.rxlen, s.explen)

/-- The invariant looks at nothing but the buffers, and at whether the machine receives or judges a response. -/
theorem State.BufferInv.of_buffers_eq {s t : State} (h : s.BufferInv) (hb : t.buffers = s.buffers)
    (hreceive : t.phase = .receive → s.phase = .receive)
    (heval : t.phase = .eval → t.cause = .ok → s.phase = .eval ∧ s.cause = .ok) : t.BufferInv := by
  simp only [State.buffers, Prod.mk.injEq] at hb
  obtain ⟨hpar, htxbuf, htxlen, hrxbuf, hrxlen, hexplen⟩ := hb
  constructor <;> simp only [hpar, htxbuf, htxlen, hrxbuf, hrxlen, hexplen]
  case size_bounds => exact h.size_bounds
  case tx_size => exact h.tx_size
  case rx_size => exact h.rx_size
  case txlen_fits => exact h.txlen_fits
  case explen_fits => exact h.explen_fits
  case rxlen_fits => exact h.rxlen_fits
  case receiving => exact fun hp => h.receiving (hreceive hp)
  case complete =>
    intro hp hc
    obtain ⟨hps, hcs⟩ := heval hp hc
    exact h.complete hps hcs

/-- A change of other elements within a phase keeps the invariant. -/
theorem State.BufferInv.of_same_phase {s t : State} (h : s.BufferInv) (hb : t.buffers = s.buffers)
    (hphase : t.phase = s.phase) (hcause : t.cause = s.cause) : t.BufferInv :=
  h.of_buffers_eq hb (fun hp => hphase ▸ hp) fun hp hc => ⟨hphase ▸ hp, hcause ▸ hc⟩

/-- With no byte stored and no response to judge, the sizes alone make the invariant. -/
theorem State.BufferInv.of_no_byte {t : State} (hsize : 16 ≤ t.par.rxbufBytes ∧ t.par.rxbufBytes ≤ 128)
    (htx : t.txbuf.length = 16) (hrx : t.rxbuf.length = t.par.rxbufBytes) (htxlen : t.txlen.toNat ≤ 16)
    (hexplen : t.explen.toNat ≤ 9) (hrxlen : t.rxlen = 0) (heval : t.phase = .eval → t.cause ≠ .ok) :
    t.BufferInv where
  size_bounds := hsize
  tx_size := htx
  rx_size := hrx
  txlen_fits := htxlen
  explen_fits := hexplen
  rxlen_fits := by simp [hrxlen]
  receiving _ hne := by rw [hrxlen]; bv_omega
  complete hp hc := absurd hc (heval hp)

/-- The transmit part keeps the buffers, and empties RXBUF where it leaves for EVAL or RECEIVE (42_transceiver.md
R213, R218). -/
theorem State.BufferInv.transmitCycle {s : State} (h : s.BufferInv) (i : CycleIn) : (s.transmitCycle i).BufferInv := by
  have abort : (s.abort .transportError).BufferInv :=
    .of_no_byte h.size_bounds h.tx_size h.rx_size h.txlen_fits h.explen_fits rfl (by simp)
  have receive : s.enterReceive.BufferInv :=
    .of_no_byte h.size_bounds h.tx_size h.rx_size h.txlen_fits h.explen_fits rfl (by simp)
  rcases transmitCycle_cases s i with
    e | ⟨-, e⟩ | ⟨-, -, e⟩ | ⟨-, -, e⟩ | ⟨-, -, -, e⟩ | ⟨-, -, -, e⟩ | ⟨-, -, e⟩ | ⟨-, -, -, -, e⟩ | ⟨-, -, -, -, e⟩
      | ⟨-, -, -, e⟩ | ⟨-, -, e⟩ <;> rw [e]
  · exact h
  · exact h.of_same_phase rfl rfl rfl
  · exact h.of_buffers_eq rfl (by simp) (by simp)
  · exact abort
  · exact h.of_buffers_eq rfl (by simp) (by simp)
  · exact h.of_buffers_eq rfl (by simp) (by simp)
  · exact h.of_buffers_eq rfl (by simp) (by simp)
  · exact h.of_buffers_eq rfl (by simp) (by simp)
  · exact h.of_same_phase rfl rfl rfl
  · exact h.of_buffers_eq rfl (by simp) (by simp)
  · exact receive

/-- One more byte does not overflow RXLEN. -/
theorem State.BufferInv.rxlen_succ {s : State} (h : s.BufferInv) (hroom : s.rxlen.toNat < s.par.rxbufBytes) :
    (s.rxlen + 1).toNat = s.rxlen.toNat + 1 := by
  have := h.size_bounds
  bv_omega

/-- In fixed-length mode RXBUF has room for every expected byte (42_transceiver.md R214). -/
theorem State.BufferInv.room {s : State} (h : s.BufferInv) (hp : s.phase = .receive) (hfix : s.explen ≠ 0) :
    s.rxlen.toNat < s.par.rxbufBytes := by
  have hmore := h.receiving hp hfix
  have hfits := h.explen_fits
  have hsize := h.size_bounds
  omega

/-- A stored byte that is not the last expected one keeps the invariant. -/
theorem State.BufferInv.storeByte {s : State} (h : s.BufferInv) (b : Byte) (hp : s.phase = .receive)
    (hroom : s.rxlen.toNat < s.par.rxbufBytes) (hmore : s.explen ≠ 0 → s.rxlen.toNat + 1 < s.explen.toNat) :
    (s.storeByte b).BufferInv where
  size_bounds := h.size_bounds
  tx_size := h.tx_size
  rx_size := by simp [h.rx_size]
  txlen_fits := h.txlen_fits
  explen_fits := h.explen_fits
  rxlen_fits := by simp only [State.storeByte_rxlen, State.storeByte_par, h.rxlen_succ hroom]; omega
  receiving _ hfix := by simpa only [State.storeByte_rxlen, State.storeByte_explen, h.rxlen_succ hroom] using hmore hfix
  complete he := by simp [hp] at he

/-- The last expected byte completes the response (42_transceiver.md R214, R221). -/
theorem State.BufferInv.storeByte_last {s : State} (h : s.BufferInv) (b : Byte)
    (hroom : s.rxlen.toNat < s.par.rxbufBytes) (hlast : s.rxlen + 1 = s.explen) :
    (s.storeByte b).endResponse.BufferInv where
  size_bounds := h.size_bounds
  tx_size := h.tx_size
  rx_size := by simp [h.rx_size]
  txlen_fits := h.txlen_fits
  explen_fits := h.explen_fits
  rxlen_fits := by
    simp only [State.endResponse_rxlen, State.endResponse_par, State.storeByte_rxlen, State.storeByte_par,
      h.rxlen_succ hroom]
    omega
  receiving he := by simp at he
  complete _ _ _ := hlast

/-- The timeout records a cause or goes on counting (42_transceiver.md R214, R216). -/
theorem State.BufferInv.timeoutCycle {s : State} (h : s.BufferInv) : s.timeoutCycle.BufferInv := by
  unfold State.timeoutCycle
  split
  · exact h.of_buffers_eq rfl (by simp) (by simp)
  · exact h.of_same_phase rfl rfl rfl

theorem State.BufferInv.receiveFixed {s : State} (h : s.BufferInv) (b : Byte) (hp : s.phase = .receive)
    (hfix : s.explen ≠ 0) : (s.receiveFixed b).BufferInv := by
  have hroom := h.room hp hfix
  unfold State.receiveFixed
  split
  case isTrue hlast => exact h.storeByte_last b hroom hlast
  case isFalse hnot =>
    have hmore : s.rxlen.toNat + 1 < s.explen.toNat := by
      have hlt := h.receiving hp hfix
      have hsucc := h.rxlen_succ hroom
      have hne : (s.rxlen + 1).toNat ≠ s.explen.toNat := fun e => hnot (BitVec.eq_of_toNat_eq e)
      omega
    exact (h.storeByte b hp hroom fun _ => hmore).timeoutCycle

/-- Line mode stores a byte only where RXBUF has room, and its end asks for no length (42_transceiver.md R215,
41_frame_codec.md R190). -/
theorem State.BufferInv.receiveLine {s : State} (h : s.BufferInv) (b : Byte) (hp : s.phase = .receive)
    (hline : s.explen = 0) : (s.receiveLine b).BufferInv := by
  have hstore : (s.storeInLine b).BufferInv ∧ (s.storeInLine b).explen = 0 := by
    unfold State.storeInLine
    split
    case isTrue hroom => exact ⟨h.storeByte b hp hroom (absurd hline), hline⟩
    case isFalse => exact ⟨h, hline⟩
  obtain ⟨hinv, hexplen⟩ := hstore
  unfold State.receiveLine
  split
  · exact { hinv with receiving := by simp, complete := fun _ _ hne => absurd hexplen hne }
  · exact hinv.timeoutCycle

theorem State.BufferInv.receiveCycle {s : State} (h : s.BufferInv) (i : CycleIn) (hp : s.phase = .receive) :
    (s.receiveCycle i).BufferInv := by
  unfold State.receiveCycle
  split
  · exact h.of_buffers_eq rfl (by simp) (by simp)
  · split
    · split
      case isTrue hline => exact h.receiveLine _ hp hline
      case isFalse hfix => exact h.receiveFixed _ hp hfix
    · exact h.timeoutCycle

/-- EVAL leaves the buffers and goes to IDLE or SETTLE (43_retry.md R259). -/
theorem State.BufferInv.evalCycle {s : State} (h : s.BufferInv) (v : Verdict) : (s.evalCycle v).BufferInv := by
  have fail : ∀ c, (s.failAttempt c).BufferInv := fun c => by
    rcases failAttempt_cases s c with ⟨-, e⟩ | ⟨-, e⟩ <;> rw [e]
    · exact h.of_buffers_eq (by simp [State.buffers]) (by simp) (by simp)
    · exact h.of_buffers_eq (by simp [State.buffers]) (by simp) (by simp)
  rcases evalCycle_cases s v with ⟨code, a, b, -, -, e⟩ | ⟨c, -, -, e⟩ | ⟨-, e⟩ <;> rw [e]
  · exact h.of_buffers_eq (by simp [State.buffers]) (by simp) (by simp)
  · exact fail c
  · exact fail s.cause

/-- One cycle of the phase table keeps the buffers' invariant. -/
theorem State.BufferInv.sequencerCycle {s : State} (h : s.BufferInv) : s.sequencerCycle.BufferInv := by
  unfold State.sequencerCycle
  split
  case h_1 => exact h
  case h_2 hp => exact h.receiveCycle _ hp
  case h_3 =>
    unfold State.evalBuffer
    split
    · exact h.evalCycle _
    · exact h
  all_goals exact h.transmitCycle _

/-- A command that finishes at once empties both lengths, and a transaction starts with its request in TXBUF, an
expected length and no byte received (44_commands.md R280). -/
theorem State.BufferInv.accepted {s t : State} (h : s.BufferInv) (hp : s.phase = .idle) {o : BitVec 4}
    (ha : Accepted (s.acceptCommon o) t) : t.BufferInv := by
  have hempty : (s.acceptCommon o).noRequest.BufferInv :=
    .of_no_byte h.size_bounds h.tx_size h.rx_size (by simp) h.explen_fits rfl (by simp [hp])
  cases ha with
  | crcInit => exact hempty.of_buffers_eq rfl (by simp) (by simp)
  | crcByte => exact hempty.of_buffers_eq rfl (by simp) (by simp)
  | refused c hc => exact hempty.of_buffers_eq rfl (by simp [State.raise]) (by simp [State.raise])
  | started op hop hr hm =>
    have hframe (p : Params) (a : Byte) (v : Half) : (requestFrame p op a v).length ≤ 16 := by
      rw [requestFrame_length]; split <;> omega
    refine .of_no_byte h.size_bounds ?_ h.rx_size ?_ (responseLength_le op) rfl (by simp)
    · rw [State.startTransaction_txbuf, loadPrefix_length _ _ (by simpa [h.tx_size] using hframe _ _ _)]
      exact h.tx_size
    · simpa using (Nat.mod_le ..).trans (hframe ..)

/-- A register write changes neither the buffers nor the phase. -/
theorem State.BufferInv.writeReg {s : State} (h : s.BufferInv) (r : Reg) (w : Word) : (s.writeReg r w).BufferInv := by
  rcases writeReg_cases s r w with e | ⟨-, e⟩ | ⟨-, e⟩ | ⟨-, e⟩ | ⟨-, e⟩ | ⟨-, e⟩ | ⟨-, e⟩ <;> rw [e]
  case inl => exact h
  all_goals exact h.of_same_phase rfl rfl rfl

/-- The host's part of a cycle keeps the buffers' invariant. -/
theorem State.BufferInv.hostPart {s t : State} (h : s.BufferInv) (ht : s.hostPart = .next t) : t.BufferInv := by
  rcases hostPart_cases ht with rfl | rfl | ⟨-, rfl⟩ | ⟨hp, -, o, ha⟩
  · exact h
  · exact h.writeReg _ _
  · exact h.of_same_phase rfl rfl rfl
  · exact h.accepted hp ha

/-- Reset empties both lengths and keeps the buffers' sizes (70_reset_and_hazards.md R360). -/
theorem State.BufferInv.resetEdge {s : State} (h : s.BufferInv) : s.resetEdge.BufferInv :=
  .of_no_byte h.size_bounds (by simp [State.resetEdge, State.afterReset])
    (by simp [State.resetEdge, State.afterReset]) (Nat.zero_le _) (Nat.zero_le _) rfl
    (by simp [State.resetEdge, State.afterReset])

theorem State.BufferInv.closeCycle {s u : State} (h : u.BufferInv) : (s.closeCycle u).BufferInv :=
  h.of_same_phase rfl rfl rfl

/-- Settles O46: the host's part keeps the invariant, and the sequencer's part is one cycle of the phase table. -/
theorem stepKeepsBuffers : Obligations.StepKeepsBuffers := by
  intro s t h hst
  have htx : s.txlen.toNat ≤ s.txbuf.length := h.tx_size ▸ h.txlen_fits
  have hrx : s.rxlen.toNat ≤ s.rxbuf.length := h.rx_size ▸ h.rxlen_fits
  rcases step_cases s with ⟨-, e⟩ | ⟨-, -, e⟩ | ⟨-, -, u, v, hu, hv, e⟩ <;> rw [e] at hst <;> cases hst
  · exact h.resetEdge.closeCycle
  · have hhost := h.hostPart hu
    by_cases hp : s.phase = .idle
    · rw [sequencerPart_idle hp] at hv
      cases hv
      exact hhost.closeCycle
    · rw [sequencerPart_busy hp htx hrx hu] at hv
      cases hv
      exact hhost.sequencerCycle.closeCycle

end Sys2Proof.Machine

/-! ## What a cycle drives and what the window shows -/

namespace Sys2Proof.Machine

/-- A step records what the block drives in its cycle. -/
theorem step_out {s t : State} (h : step s = .next t) : t.out = s.outputs := by
  rcases step_cases s with ⟨-, e⟩ | ⟨-, -, e⟩ | ⟨-, -, u, v, -, -, e⟩ <;> rw [e] at h <;> cases h <;> rfl

theorem State.txByte_of_lt {s : State} {i : Nat} (h : i < s.txlen.toNat) : s.txByte i = s.txbuf.getD i 0 := if_pos h

theorem State.irq_iff (s : State) : s.irq = true ↔ s.irqStatus &&& s.irqEnable ≠ 0 := decide_eq_true_iff

theorem State.txValid_iff (s : State) : s.txValid = true ↔ s.phase = .txFirst ∨ s.phase = .txRest :=
  decide_eq_true_iff

/-- Settles O41: the outputs on record are those of the state before the step. -/
theorem outputsOfCycle : Obligations.OutputsOfCycle := by
  intro s t h
  rw [step_out h]
  refine ⟨rfl, rfl, rfl, s.txValid_iff, State.txByte_of_lt, s.irq_iff, ?_⟩
  exact if_congr (by simp [State.outputs, and_assoc]) rfl rfl

/-- Above the last register below the buffers, an offset names a buffer word or nothing (10_state.md R37 to R39). -/
theorem regAt_of_ge (p : Params) {o : Nat} (h : 0x38 ≤ o) :
    regAt p o = if 0x40 ≤ o ∧ o < 0x50 then .txbuf (o - 0x40)
      else if 0x80 ≤ o ∧ o < 0x80 + p.rxbufBytes then .rxbuf (o - 0x80) else .unmapped := by
  unfold regAt
  split
  case h_15 => rfl
  all_goals omega

/-- An offset past the registers and outside both buffers shows 0 (10_state.md R39). -/
theorem State.view_of_outside (s : State) {k : BitVec 6} (h : 0x38 ≤ 4 * k.toNat)
    (htx : ¬ (0x40 ≤ 4 * k.toNat ∧ 4 * k.toNat < 0x50))
    (hrx : ¬ (0x80 ≤ 4 * k.toNat ∧ 4 * k.toNat < 0x80 + s.par.rxbufBytes)) : s.view k = 0 := by
  rw [State.view, byteOffset, regAt_of_ge _ h, if_neg htx, if_neg hrx, State.readReg]

/-- The fields of a word add up at their places. -/
theorem toNat_append_eq_add {m n : Nat} (x : BitVec m) (y : BitVec n) :
    (x ++ y).toNat = x.toNat * 2 ^ n + y.toNat := by
  rw [BitVec.toNat_append, ← Nat.shiftLeft_add_eq_or_of_lt y.isLt, Nat.shiftLeft_eq]

@[simp] theorem flag_toNat (b : Bool) : (flag b).toNat = b.toNat := BitVec.toNat_ofBool b

theorem State.busy_toNat (s : State) : s.busy.toNat = if s.phase = .idle then 0 else 1 := by
  by_cases h : s.phase = .idle <;> simp [State.busy, h]

/-- The STATUS word as a sum of its fields (10_state.md R26). -/
theorem State.statusWord_toNat (s : State) :
    s.statusWord.toNat = (if s.phase = .idle then 0 else 1) + 2 * s.done.toNat + 4 * s.overrun.toNat
      + 16 * s.code.bits.toNat + 256 * s.lastCause.bits.toNat + 65536 * s.attempt.toNat := by
  simp only [State.statusWord, toNat_append_eq_add, flag_toNat, State.busy_toNat, BitVec.toNat_zero]
  omega

/-- The LINES word as a sum of its fields (10_state.md R31). -/
theorem State.linesWord_toNat (s : State) :
    s.linesWord.toNat = s.de.toNat + 2 * s.re.toNat + 4 * s.baudSel.toNat + 16 * s.phase.bits.toNat
      + 256 * (variantBits s.variant).toNat := by
  simp only [State.linesWord, toNat_append_eq_add, flag_toNat, BitVec.toNat_zero]
  omega

/-- The FAILLOG word as a sum of its fields (10_state.md R34). -/
theorem State.faillogWord_toNat (s : State) :
    s.faillogWord.toNat = s.faillogCause.bits.toNat + 256 * s.faillogAttempt.toNat := by
  simp only [State.faillogWord, toNat_append_eq_add, BitVec.toNat_zero]
  omega

/-- Settles O39: each word below the buffers by the map, the unmapped ranges by their bounds, and the words of several
fields by their sums. -/
theorem registerViews : Obligations.RegisterViews := by
  refine ⟨fun s => ?_, by decide, by decide, by decide⟩
  refine ⟨rfl, rfl, rfl, rfl, rfl, rfl, rfl, rfl, rfl, rfl, rfl, rfl, rfl, fun k hlo hhi => ?_, fun k hlo => ?_,
    s.statusWord_toNat, s.linesWord_toNat, s.faillogWord_toNat⟩
  · exact s.view_of_outside (by omega) (by omega) (by omega)
  · exact s.view_of_outside (by omega) (by omega) (by omega)

end Sys2Proof.Machine

/-! ## The host's side of the state

The sequencer reads no host register, no flag of the host and no host access, and the only one of them it writes is
IRQ_STATUS, in EVAL, where it sets bits (20_memory.md R73, 60_exceptions.md R328). Said once here: the sequencer's part
of a cycle commutes with putting another host's side in. -/

namespace Sys2Proof.Machine

open Sys2Proof.Claims

/-- `s` with the host's side of `h`: everything but what the sequencer owns and the parameters. -/
def State.withHostSide (s h : State) : State :=
  { s with
    regAddr := h.regAddr, regValue := h.regValue, regMaxatt := h.regMaxatt, crc := h.crc, overrun := h.overrun,
    irqStatus := h.irqStatus, irqEnable := h.irqEnable, inputs := h.inputs, cycle := h.cycle, out := h.out }

@[simp] theorem State.withHostSide_phase (s h : State) : (s.withHostSide h).phase = s.phase := rfl
@[simp] theorem State.withHostSide_cnt (s h : State) : (s.withHostSide h).cnt = s.cnt := rfl
@[simp] theorem State.withHostSide_txidx (s h : State) : (s.withHostSide h).txidx = s.txidx := rfl
@[simp] theorem State.withHostSide_txlen (s h : State) : (s.withHostSide h).txlen = s.txlen := rfl
@[simp] theorem State.withHostSide_cause (s h : State) : (s.withHostSide h).cause = s.cause := rfl
@[simp] theorem State.withHostSide_now (s h : State) : (s.withHostSide h).now = h.now := rfl

@[simp] theorem sequencerView_withHostSide (s h : State) : sequencerView (s.withHostSide h) = sequencerView s := rfl

/-- What of a cycle's inputs the sequencer can read: the transport's signals (42_transceiver.md R200). -/
def wireSignals (i : CycleIn) : CycleIn := { i with rst := false, host := quietHost }

theorem transmitCycle_wireSignals (s : State) (i : CycleIn) : s.transmitCycle (wireSignals i) = s.transmitCycle i := rfl

theorem receiveCycle_wireSignals (s : State) (i : CycleIn) : s.receiveCycle (wireSignals i) = s.receiveCycle i := rfl

theorem transmitCycle_congr {i j : CycleIn} (h : wireSignals i = wireSignals j) (s : State) :
    s.transmitCycle i = s.transmitCycle j := by
  rw [← transmitCycle_wireSignals, h, transmitCycle_wireSignals]

theorem receiveCycle_congr {i j : CycleIn} (h : wireSignals i = wireSignals j) (s : State) :
    s.receiveCycle i = s.receiveCycle j := by
  rw [← receiveCycle_wireSignals, h, receiveCycle_wireSignals]

/-- The transmit part neither reads nor writes the host's side. -/
theorem transmitCycle_withHostSide (s h : State) (i : CycleIn) :
    (s.withHostSide h).transmitCycle i = (s.transmitCycle i).withHostSide h := by
  cases hp : s.phase <;> simp only [State.transmitCycle, State.countdown, State.withHostSide_phase,
    State.withHostSide_cnt, State.withHostSide_txidx, State.withHostSide_txlen, hp] <;> (repeat' split) <;> rfl

theorem timeoutCycle_withHostSide (s h : State) :
    (s.withHostSide h).timeoutCycle = s.timeoutCycle.withHostSide h := by
  unfold State.timeoutCycle
  rw [apply_ite (State.withHostSide · h)]
  rfl

theorem storeInLine_withHostSide (s h : State) (b : Byte) :
    (s.withHostSide h).storeInLine b = (s.storeInLine b).withHostSide h := by
  unfold State.storeInLine
  rw [apply_ite (State.withHostSide · h)]
  rfl

theorem receiveFixed_withHostSide (s h : State) (b : Byte) :
    (s.withHostSide h).receiveFixed b = (s.receiveFixed b).withHostSide h := by
  unfold State.receiveFixed
  rw [apply_ite (State.withHostSide · h), ← timeoutCycle_withHostSide]
  rfl

theorem receiveLine_withHostSide (s h : State) (b : Byte) :
    (s.withHostSide h).receiveLine b = (s.receiveLine b).withHostSide h := by
  unfold State.receiveLine
  rw [storeInLine_withHostSide, timeoutCycle_withHostSide, apply_ite (State.withHostSide · h)]
  rfl

/-- RECEIVE neither reads nor writes the host's side. -/
theorem receiveCycle_withHostSide (s h : State) (i : CycleIn) :
    (s.withHostSide h).receiveCycle i = (s.receiveCycle i).withHostSide h := by
  unfold State.receiveCycle
  rw [receiveLine_withHostSide, receiveFixed_withHostSide, timeoutCycle_withHostSide]
  simp only [apply_ite (State.withHostSide · h)]
  rfl

/-- An operation of the sequencer at `s`: of the host's side it reads the transport's signals alone, and there it
changes nothing but IRQ_STATUS, by setting bits in EVAL. -/
def HostBlindAt (f : State → State) (s : State) : Prop :=
  ∃ b, (s.phase ≠ .eval → b = 0#2)
    ∧ ∀ h, wireSignals h.now = wireSignals s.now → f (s.withHostSide h) = (f s).withHostSide (h.setIrq b)

@[simp] theorem State.setIrq_zero (s : State) : s.setIrq 0#2 = s := by simp [State.setIrq]

/-- An operation that commutes with putting another host's side in sets no interrupt bit. -/
theorem HostBlindAt.of_commutes {f : State → State} {s : State}
    (hf : ∀ h, wireSignals h.now = wireSignals s.now → f (s.withHostSide h) = (f s).withHostSide h) :
    HostBlindAt f s :=
  ⟨0#2, fun _ => rfl, by simpa using hf⟩

/-- What an operation of the sequencer leaves of the host's side (60_exceptions.md R328). -/
theorem HostBlindAt.frame {f : State → State} {s : State} (hf : HostBlindAt f s) :
    ∃ b, (s.phase ≠ .eval → b = 0#2) ∧ f s = (f s).withHostSide (s.setIrq b) := by
  obtain ⟨b, hb, hcomm⟩ := hf
  exact ⟨b, hb, hcomm s rfl⟩

/-- What the sequencer owns comes out the same beside every host's side. -/
theorem HostBlindAt.sequencerView_eq {f : State → State} {s h : State} (hf : HostBlindAt f s)
    (hw : wireSignals h.now = wireSignals s.now) : sequencerView (f (s.withHostSide h)) = sequencerView (f s) := by
  obtain ⟨b, -, hcomm⟩ := hf
  rw [hcomm h hw, sequencerView_withHostSide]

theorem failAttempt_retry {s : State} (h : s.attempt.toNat < s.maxatt.toNat) (c : Code) :
    s.failAttempt c = (s.report c s.attempt).retry := if_pos h

theorem failAttempt_exhaust {s : State} (h : ¬ s.attempt.toNat < s.maxatt.toNat) (c : Code) :
    s.failAttempt c = (s.report c s.attempt).finish .exhausted c 0 0 := if_neg h

/-- A failed attempt reads nothing of the host's side and sets interrupt bits there (43_retry.md R254, R255). -/
theorem failAttempt_withHostSide (s : State) (c : Code) :
    ∃ b, ∀ h, (s.withHostSide h).failAttempt c = (s.failAttempt c).withHostSide (h.setIrq b) := by
  by_cases hlt : s.attempt.toNat < s.maxatt.toNat
  · refine ⟨attfailIrq, fun h => ?_⟩
    rw [failAttempt_retry hlt, failAttempt_retry (s := s.withHostSide h) hlt]
    rfl
  · refine ⟨attfailIrq ||| doneIrq, fun h => ?_⟩
    rw [failAttempt_exhaust hlt, failAttempt_exhaust (s := s.withHostSide h) hlt, State.setIrq, ← BitVec.or_assoc]
    rfl

theorem evalCycle_conclude {s : State} (h : s.cause = .ok) (v : Verdict) : s.evalCycle v = s.conclude v := if_pos h

theorem evalCycle_fail {s : State} (h : s.cause ≠ .ok) (v : Verdict) : s.evalCycle v = s.failAttempt s.cause := if_neg h

/-- EVAL reads nothing of the host's side and sets interrupt bits there (60_exceptions.md R328). -/
theorem evalCycle_withHostSide (s : State) (v : Verdict) :
    ∃ b, ∀ h, (s.withHostSide h).evalCycle v = (s.evalCycle v).withHostSide (h.setIrq b) := by
  by_cases hc : s.cause = .ok
  · simp only [evalCycle_conclude, State.withHostSide_cause, hc]
    cases v with
    | accept code a b => exact ⟨doneIrq, fun h => rfl⟩
    | reject c => exact failAttempt_withHostSide s c
  · obtain ⟨b, hb⟩ := failAttempt_withHostSide s s.cause
    exact ⟨b, fun h => by rw [evalCycle_fail hc, evalCycle_fail (s := s.withHostSide h) hc, ← hb]; rfl⟩

theorem sendFrame_of_transmitting {s : State} (h : s.phase.transmitting = true) (bs : List Byte) :
    s.sendFrame bs = (s.loadRequest bs).transmitCycle s.now := if_pos h

theorem sendFrame_of_not_transmitting {s : State} (h : ¬ s.phase.transmitting = true) (bs : List Byte) :
    s.sendFrame bs = s := if_neg h

theorem judgeFrame_of_eval {s : State} (h : s.phase = .eval) (op : TransOp) (bs : List Byte) :
    s.judgeFrame op bs = (s.loadResponse bs).evalCycle (judge s.par op bs (s.txByte 5)) := if_pos h

theorem judgeFrame_of_not_eval {s : State} (h : s.phase ≠ .eval) (op : TransOp) (bs : List Byte) :
    s.judgeFrame op bs = s := if_neg h

theorem hostBlindAt_sendFrame (bs : List Byte) (s : State) : HostBlindAt (·.sendFrame bs) s := by
  refine .of_commutes fun h hw => ?_
  by_cases ht : s.phase.transmitting = true
  · simp only [sendFrame_of_transmitting ht, sendFrame_of_transmitting (s := s.withHostSide h) ht,
      State.withHostSide_now, transmitCycle_congr hw]
    exact transmitCycle_withHostSide (s.loadRequest bs) h s.now
  · simp only [sendFrame_of_not_transmitting ht, sendFrame_of_not_transmitting (s := s.withHostSide h) ht]

theorem hostBlindAt_judgeFrame (op : TransOp) (bs : List Byte) (s : State) :
    HostBlindAt (·.judgeFrame op bs) s := by
  by_cases he : s.phase = .eval
  · obtain ⟨b, hb⟩ := evalCycle_withHostSide (s.loadResponse bs) (judge s.par op bs (s.txByte 5))
    refine ⟨b, absurd he, fun h _ => ?_⟩
    simp only [judgeFrame_of_eval he, judgeFrame_of_eval (s := s.withHostSide h) he]
    exact hb h
  · refine .of_commutes fun h _ => ?_
    simp only [judgeFrame_of_not_eval he, judgeFrame_of_not_eval (s := s.withHostSide h) he]

theorem sequencerCycle_of_transmitting {s : State} (h : s.phase.transmitting = true) :
    s.sequencerCycle = s.transmitCycle s.now := by
  unfold State.sequencerCycle
  split <;> simp_all [Phase.transmitting]

theorem sequencerCycle_of_receive {s : State} (h : s.phase = .receive) :
    s.sequencerCycle = s.receiveCycle s.now := by rw [State.sequencerCycle, h]

theorem sequencerCycle_of_eval {s : State} (h : s.phase = .eval) : s.sequencerCycle = s.evalBuffer := by
  rw [State.sequencerCycle, h]

theorem sequencerCycle_of_idle {s : State} (h : s.phase = .idle) : s.sequencerCycle = s := by
  rw [State.sequencerCycle, h]

theorem evalBuffer_of_some {s : State} {op : TransOp} (h : TransOp.ofCode s.op = some op) :
    s.evalBuffer = s.evalCycle (judge s.par op s.responseBytes (s.txByte 5)) := by rw [State.evalBuffer, h]

theorem evalBuffer_of_none {s : State} (h : TransOp.ofCode s.op = none) : s.evalBuffer = s := by
  rw [State.evalBuffer, h]

theorem hostBlindAt_sequencerCycle (s : State) : HostBlindAt State.sequencerCycle s := by
  by_cases ht : s.phase.transmitting = true
  · refine .of_commutes fun h hw => ?_
    rw [sequencerCycle_of_transmitting ht, sequencerCycle_of_transmitting (s := s.withHostSide h) ht,
      State.withHostSide_now, transmitCycle_congr hw, transmitCycle_withHostSide]
  cases hp : s.phase
  case idle =>
    refine .of_commutes fun h _ => ?_
    rw [sequencerCycle_of_idle hp, sequencerCycle_of_idle (s := s.withHostSide h) hp]
  case receive =>
    refine .of_commutes fun h hw => ?_
    rw [sequencerCycle_of_receive hp, sequencerCycle_of_receive (s := s.withHostSide h) hp,
      State.withHostSide_now, receiveCycle_congr hw, receiveCycle_withHostSide]
  case eval =>
    cases hop : TransOp.ofCode s.op with
    | none =>
      refine .of_commutes fun h _ => ?_
      rw [sequencerCycle_of_eval hp, sequencerCycle_of_eval (s := s.withHostSide h) hp, evalBuffer_of_none hop,
        evalBuffer_of_none (s := s.withHostSide h) hop]
    | some op =>
      obtain ⟨b, hb⟩ := evalCycle_withHostSide s (judge s.par op s.responseBytes (s.txByte 5))
      refine ⟨b, absurd hp, fun h _ => ?_⟩
      rw [sequencerCycle_of_eval hp, sequencerCycle_of_eval (s := s.withHostSide h) hp, evalBuffer_of_some hop,
        evalBuffer_of_some (s := s.withHostSide h) hop]
      exact hb h
  all_goals simp [hp, Phase.transmitting] at ht

/-- A fetched frame is the command's request or its complete response, decoded (30_encoding.md R103). -/
theorem fetchFrame_eq_some {s : State} {i : Instr} (h : s.fetchFrame = some i) :
    ∃ op, TransOp.ofCode s.op = some op
      ∧ (decode s.par (.request op) s.requestBytes = .ok i ∨ decode s.par (.response op) s.responseBytes = .ok i) := by
  have ok_of_toOption {x : Except DecodeReject Instr} (hx : x.toOption = some i) : x = .ok i := by
    cases x <;> simp_all [Except.toOption]
  unfold State.fetchFrame State.frameContext at h
  cases hop : TransOp.ofCode s.op with
  | none => simp [hop] at h
  | some op =>
    refine ⟨op, rfl, ?_⟩
    simp only [hop] at h
    split_ifs at h
    · exact .inl (ok_of_toOption h)
    · exact .inr (ok_of_toOption h)

/-- What the sequencer does in a cycle is fixed by the state before it, and is blind to the host. -/
theorem sequencerPart_hostBlind (b : State) :
    ∃ f : State → State, (∀ s, HostBlindAt f s)
      ∧ ∀ s, s.op = b.op → s.par = b.par → b.sequencerPart s = .next (f s) := by
  by_cases hp : b.phase = .idle
  · exact ⟨id, fun s => .of_commutes fun _ _ => rfl, fun s _ _ => sequencerPart_idle hp⟩
  cases hf : b.fetchFrame with
  | none => exact ⟨_, hostBlindAt_sequencerCycle, fun s _ _ => by simp [State.sequencerPart, hp, hf]⟩
  | some i =>
    have hexec (s : State) : b.sequencerPart s = exec i s := by simp [State.sequencerPart, hp, hf]
    obtain ⟨op, hop, hd | hd⟩ := fetchFrame_eq_some hf
    · refine ⟨_, hostBlindAt_sendFrame b.requestBytes, fun s _ hpar => ?_⟩
      rw [hexec, exec_of_decodeRequest hd, hpar, encode_of_decodeRequest hd]
    · refine ⟨_, hostBlindAt_judgeFrame op b.responseBytes, fun s ho hpar => ?_⟩
      rw [hexec, exec_of_decodeResponse hd (ho.trans (ofCode_eq_some hop)), hpar, encode_of_decodeResponse hd]

/-! ## The host's part beside a running command -/

@[simp] theorem State.writeReg_now (s : State) (r : Reg) (w : Word) : (s.writeReg r w).now = s.now := by
  cases r <;> rfl

theorem State.writeReg_eq_withHostSide (s : State) (r : Reg) (w : Word) :
    s.writeReg r w = s.withHostSide (s.writeReg r w) := by
  cases r <;> rfl

/-- While a command runs the host's part changes the host's side alone, and none of the cycle's inputs. -/
theorem hostPart_busy_withHostSide {s t : State} (hp : s.phase ≠ .idle) (h : s.hostPart = .next t) :
    t = s.withHostSide t ∧ t.now = s.now := by
  rcases hostPart_busy hp h with rfl | rfl | rfl
  · exact ⟨rfl, rfl⟩
  · exact ⟨s.writeReg_eq_withHostSide _ _, s.writeReg_now _ _⟩
  · exact ⟨rfl, rfl⟩

/-- While a command runs, what the sequencer owns after the step is what it computes from the state before it, whatever
host's side stands beside it. -/
theorem step_busy_sequencerView {s t : State} {f : State → State} (hp : s.phase ≠ .idle) (hr : s.now.rst = false)
    (hf : ∀ s, HostBlindAt f s) (hpart : ∀ u, u.op = s.op → u.par = s.par → s.sequencerPart u = .next (f u))
    (h : step s = .next t) : sequencerView t = sequencerView (f s) := by
  rcases step_cases s with ⟨hr', -⟩ | ⟨-, -, e⟩ | ⟨-, -, u, v, hu, hv, e⟩
  · simp [hr] at hr'
  · simp [e] at h
  obtain ⟨hside, hnow⟩ := hostPart_busy_withHostSide hp hu
  rw [hside, hpart (s.withHostSide u) rfl rfl] at hv
  cases hv
  rw [e] at h
  cases h
  exact (hf s).sequencerView_eq (congrArg wireSignals hnow)

/-- Settles O52: the two host's parts change the host's side alone, and the sequencer, which is blind to it, computes
the same from both. -/
theorem hostCannotDisturbCommand : Obligations.HostCannotDisturbCommand := by
  intro s t u h hp hr _ _ ht hu
  obtain ⟨f, hf, hpart⟩ := sequencerPart_hostBlind s
  calc sequencerView t = sequencerView (f s) := step_busy_sequencerView hp hr hf hpart ht
    _ = sequencerView (f (withNow s { s.now with host := h })) :=
      ((hf s).sequencerView_eq (h := withNow s { s.now with host := h }) rfl).symm
    _ = sequencerView u :=
      (step_busy_sequencerView (s := withNow s { s.now with host := h }) hp hr hf hpart hu).symm

/-! ## Reads -/

/-- The whole cycle without reset, for a whole-word access or none. -/
theorem step_of_hostPart {s t u : State} (hr : s.now.rst = false) (hw : s.now.host.whole = true)
    (ht : s.hostPart = .next t) (hu : s.sequencerPart t = .next u) : step s = .next (s.closeCycle u) := by
  simp [step, State.clock, hr, hw, ht, hu, andThen]

/-- Without a host write the host's part changes nothing (20_memory.md R62). -/
theorem hostPart_of_no_write {s : State} (h : s.now.host.en = false ∨ s.now.host.we = false) :
    s.hostPart = .next s := by
  have hwrite : (s.now.host.en && s.now.host.we) = false := by rcases h with h | h <;> simp [h]
  rw [hostPart_of_not_commandWrite (by simp [State.commandWrite, hwrite])]
  simp [State.hostCycle, hwrite]

/-- Settles O38: neither cycle has a host's part, and the sequencer's part does not see the access. -/
theorem readHasNoSideEffect : Obligations.ReadHasNoSideEffect := by
  intro s hr hen hwe hword
  obtain ⟨f, hf, hpart⟩ := sequencerPart_hostBlind s
  obtain ⟨b, -, hcomm⟩ := hf s
  have hwhole : s.now.host.whole = true := by simp [HostAccess.whole, hword]
  have hread := step_of_hostPart hr hwhole (hostPart_of_no_write (.inr hwe)) (hpart s rfl rfl)
  let q := withNow s { s.now with host := { s.now.host with en := false } }
  have hquiet : step q = .next (q.closeCycle (f q)) :=
    step_of_hostPart hr rfl (hostPart_of_no_write (.inl rfl)) (hpart q rfl rfl)
  refine ⟨_, _, hread, hquiet, ?_, ?_⟩
  · simp [State.outputs, State.hostRead, hr, hen, hwe]
  · have hs : f s = (f s).withHostSide (s.setIrq b) := hcomm s rfl
    have hq : f q = (f s).withHostSide (q.setIrq b) := hcomm q rfl
    rw [hq, hs]
    rfl

end Sys2Proof.Machine

/-! ## Writes -/

namespace Sys2Proof.Machine

open Sys2Proof.Claims

/-- `s` after a whole-word write of `w` to word `k` of the window, for every word but CMD (20_memory.md R63). -/
def State.writtenWord (s : State) (k : Nat) (w : Word) : State :=
  match k with
  | 1 => { s with regAddr := w.setWidth 8 }
  | 2 => { s with regValue := w.setWidth 16 }
  | 3 => { s with regMaxatt := w.setWidth 8 }
  | 7 => { s with crc := w.setWidth 16 }
  | 9 => s.ackIrq (w.setWidth 2)
  | 10 => { s with irqEnable := w.setWidth 2 }
  | _ => s

theorem State.writtenWord_other (s : State) {k : Nat} (w : Word) (h : k ∉ [0, 1, 2, 3, 7, 9, 10]) :
    s.writtenWord k w = s := by
  unfold State.writtenWord
  split <;> simp_all

theorem State.writtenWord_eq_withHostSide (s : State) (k : Nat) (w : Word) :
    s.writtenWord k w = s.withHostSide (s.writtenWord k w) := by
  unfold State.writtenWord
  split <;> rfl

theorem State.writtenWord_overrun (s : State) (k : Nat) (w : Word) : (s.writtenWord k w).overrun = s.overrun := by
  unfold State.writtenWord
  split <;> rfl

theorem hostRegisters_writtenWord (s : State) (k : Nat) (w : Word) :
    hostRegisters (s.writtenWord k w) = (if k = 1 then hostRegisters { s with regAddr := w.setWidth 8 }
      else if k = 2 then hostRegisters { s with regValue := w.setWidth 16 }
      else if k = 3 then hostRegisters { s with regMaxatt := w.setWidth 8 }
      else if k = 7 then hostRegisters { s with crc := w.setWidth 16 }
      else if k = 10 then hostRegisters { s with irqEnable := w.setWidth 2 }
      else hostRegisters s) := by
  unfold State.writtenWord
  split
  case h_7 => simp_all
  all_goals rfl

theorem State.writtenWord_irqStatus (s : State) (k : Nat) (w : Word) :
    (s.writtenWord k w).irqStatus = if k = 9 then s.irqStatus &&& ~~~(w.setWidth 2) else s.irqStatus := by
  unfold State.writtenWord
  split
  case h_7 => simp_all
  all_goals rfl

/-- The offset map and the write's table agree: word `k` takes what its register takes (10_state.md R21). -/
theorem writeReg_regAt (s : State) (p : Params) (k : Nat) (w : Word) :
    s.writeReg (regAt p (4 * k)) w = s.writtenWord k w := by
  by_cases hk : k < 14
  · interval_cases k <;> rfl
  · rw [regAt_of_ge p (by omega), State.writtenWord_other s w (by simp; omega)]
    split_ifs <;> rfl

/-- CMD is the first word of the window and no other (10_state.md R21). -/
theorem regAt_ne_cmd (p : Params) {k : Nat} (hk : k ≠ 0) : regAt p (4 * k) ≠ .cmd := by
  by_cases hlt : k < 14
  · interval_cases k <;> simp_all [regAt]
  · rw [regAt_of_ge p (by omega)]
    split_ifs <;> simp

/-- The host's part of a write outside CMD (20_memory.md R63). -/
theorem hostPart_of_write {s : State} (hen : s.now.host.en = true) (hwe : s.now.host.we = true)
    (hk : s.now.host.wordIndex.toNat ≠ 0) :
    s.hostPart = .next (s.writtenWord s.now.host.wordIndex.toNat s.now.host.wdata) := by
  have hcmd : s.commandWrite = false := by
    simp [State.commandWrite, State.hostReg, byteOffset, regAt_ne_cmd s.par hk]
  rw [hostPart_of_not_commandWrite hcmd, ← writeReg_regAt s s.par]
  simp [State.hostCycle, hen, hwe, State.hostReg, byteOffset]

/-- An idle cycle is the host's part alone. -/
theorem step_idle {s t : State} (hp : s.phase = .idle) (hr : s.now.rst = false) (hw : s.now.host.whole = true)
    (ht : s.hostPart = .next t) : step s = .next (s.closeCycle t) :=
  step_of_hostPart hr hw ht (sequencerPart_idle hp)

/-- A state that differs from `s` in the host's side alone agrees with it on what decides the cycle. -/
theorem fields_of_withHostSide {s u : State} (h : u = s.withHostSide u) :
    u.phase = s.phase ∧ u.op = s.op ∧ u.par = s.par ∧ u.attempt = s.attempt := by
  rw [h]
  exact ⟨rfl, rfl, rfl, rfl⟩

/-- The sequencer's part leaves the registers a host writes, OVERRUN, and outside EVAL IRQ_STATUS
(20_memory.md R73, 60_exceptions.md R328). -/
theorem sequencerPart_frame {s u v : State} (hside : u = s.withHostSide u) (h : s.sequencerPart u = .next v) :
    hostRegisters v = hostRegisters u ∧ v.overrun = u.overrun ∧ (s.phase ≠ .eval → v.irqStatus = u.irqStatus) := by
  obtain ⟨f, hf, hpart⟩ := sequencerPart_hostBlind s
  obtain ⟨hphase, hop, hpar, -⟩ := fields_of_withHostSide hside
  rw [hpart u hop hpar] at h
  cases h
  obtain ⟨b, hb, hframe⟩ := (hf u).frame
  rw [hframe]
  exact ⟨rfl, rfl, fun hp => by rw [hb (hphase ▸ hp), State.setIrq_zero]; rfl⟩

/-- Settles O37: the host's part is the table of writes, an idle cycle is the host's part alone, and the sequencer's
part leaves what the host wrote. -/
theorem hostWriteTable : Obligations.HostWriteTable := by
  intro s
  refine ⟨fun h => ⟨hostPart_of_no_write h, fun hp hr hw => step_idle hp hr hw (hostPart_of_no_write h)⟩, ?_⟩
  intro hr hen hwe hword w k
  have hw : s.now.host.whole = true := by simp [HostAccess.whole, hword]
  have written (n : Nat) (hn : n ≠ 0) (hk : k = n) : s.hostPart = .next (s.writtenWord n w) := by
    subst hk
    exact hostPart_of_write hen hwe hn
  have other (hk : k ∉ [0, 1, 2, 3, 7, 9, 10]) : s.hostPart = .next s := by
    rw [written k (by simp_all) rfl, s.writtenWord_other w hk]
  refine ⟨⟨written 1 (by decide), written 2 (by decide), written 3 (by decide), written 7 (by decide),
    written 9 (by decide), written 10 (by decide), other⟩, fun hp => ?_, fun hk => ?_⟩
  · have stepped (n : Nat) (hn : n ≠ 0) (hk : k = n) : step s = .next (s.closeCycle (s.writtenWord n w)) :=
      step_idle hp hr hw (written n hn hk)
    exact ⟨stepped 1 (by decide), stepped 2 (by decide), stepped 3 (by decide), stepped 7 (by decide),
      stepped 9 (by decide), stepped 10 (by decide), fun hk => step_idle hp hr hw (other hk)⟩
  · have hu := written k hk rfl
    obtain ⟨v, hv⟩ := sequencerPart_next s (s.writtenWord k w)
    obtain ⟨hregs, hover, hirq⟩ := sequencerPart_frame (s.writtenWord_eq_withHostSide k w) hv
    refine ⟨_, step_of_hostPart hr hw hu hv, hover.trans (s.writtenWord_overrun k w),
      hregs.trans (hostRegisters_writtenWord s k w), fun hp => ?_⟩
    exact (hirq hp).trans (s.writtenWord_irqStatus k w)

end Sys2Proof.Machine

/-! ## Buffer words -/

namespace Sys2Proof.Machine

/-- Lane `k` of a word of four consecutive bytes is byte `k` (20_memory.md R66). -/
theorem lane_packWord_of_lt (f : Nat → Byte) (n : Nat) {k : Nat} (hk : k < 4) :
    lane (packWord (f n) (f (n + 1)) (f (n + 2)) (f (n + 3))) k = f (n + k) := by
  obtain ⟨h0, h1, h2, h3⟩ := lane_packWord (f n) (f (n + 1)) (f (n + 2)) (f (n + 3))
  match k, hk with
  | 0, _ => exact h0
  | 1, _ => exact h1
  | 2, _ => exact h2
  | 3, _ => exact h3

theorem State.rxByte_of_lt {s : State} {i : Nat} (h : i < s.rxlen.toNat) : s.rxByte i = s.rxbuf.getD i 0 := if_pos h

theorem byteOffset_ofNat {n : Nat} (h : n < 64) : byteOffset (BitVec.ofNat 6 n) = 4 * n := by
  simp [byteOffset, Nat.mod_eq_of_lt h]

/-- A word of TXBUF shows its four bytes (10_state.md R37). -/
theorem State.view_txbuf (s : State) {word : Nat} (h : word < 4) :
    s.view (BitVec.ofNat 6 (16 + word)) = s.readReg (.txbuf (4 * word)) := by
  rw [State.view, byteOffset_ofNat (by omega), regAt_of_ge _ (by omega), if_pos (by omega),
    show 4 * (16 + word) - 0x40 = 4 * word by omega]

/-- A word of RXBUF shows its four bytes (10_state.md R38). -/
theorem State.view_rxbuf (s : State) {word : Nat} (hsize : s.par.rxbufBytes ≤ 128) (h : 4 * word < s.par.rxbufBytes) :
    s.view (BitVec.ofNat 6 (32 + word)) = s.readReg (.rxbuf (4 * word)) := by
  rw [State.view, byteOffset_ofNat (by omega), regAt_of_ge _ (by omega), if_neg (by omega), if_pos (by omega),
    show 4 * (32 + word) - 0x80 = 4 * word by omega]

/-- Settles O40: the window's map leads to the buffer word, and its lane to the byte. -/
theorem bufferWordLanes : Obligations.BufferWordLanes := by
  intro s word k hk
  refine ⟨fun hword hlen => ?_, fun hsize hword hlen => ?_⟩
  · rw [s.view_txbuf hword, State.readReg, lane_packWord_of_lt s.txByte _ hk, State.txByte_of_lt hlen]
  · rw [s.view_rxbuf hsize hword, State.readReg, lane_packWord_of_lt s.rxByte _ hk, State.rxByte_of_lt hlen]

end Sys2Proof.Machine

/-! ## Going idle -/

namespace Sys2Proof.Machine

/-- The command that runs in `s` is finished in `t` by the EVAL cycle (43_retry.md R259, 60_exceptions.md R325). -/
structure FinishedFrom (s t : State) : Prop where
  from_eval : s.phase = .eval
  done : t.done = true
  irq : t.irqStatus.getLsbD 0 = true
  attempt : t.attempt = s.attempt
  code : t.code ∈ [Code.ok, .valueRejected, .exhausted]

/-- The transmit part never goes idle (42_transceiver.md R206). -/
theorem transmitCycle_ne_idle {s : State} (hp : s.phase ≠ .idle) (i : CycleIn) :
    (s.transmitCycle i).phase ≠ .idle := by
  rcases transmitCycle_cases s i with
    e | ⟨-, e⟩ | ⟨-, -, e⟩ | ⟨-, -, e⟩ | ⟨-, -, -, e⟩ | ⟨-, -, -, e⟩ | ⟨-, -, e⟩ | ⟨-, -, -, -, e⟩ | ⟨-, -, -, -, e⟩
      | ⟨-, -, -, e⟩ | ⟨-, -, e⟩ <;> rw [e] <;> simp [hp]

/-- RECEIVE never goes idle (42_transceiver.md R206). -/
theorem receiveCycle_ne_idle {s : State} (hp : s.phase ≠ .idle) (i : CycleIn) :
    (s.receiveCycle i).phase ≠ .idle := by
  rcases receiveCycle_cases s i with ⟨-, e⟩ | ⟨u, hu, ⟨-, e⟩ | ⟨-, e⟩ | ⟨-, e⟩⟩ <;> rw [e]
  case inr.inr.inr =>
    rcases hu with ⟨-, rfl⟩ | ⟨-, rfl | rfl⟩ <;> exact hp
  all_goals simp

theorem setIrq_doneIrq_bit (s : State) : (s.setIrq doneIrq).irqStatus.getLsbD 0 = true := by
  simp [doneIrq]

theorem FinishedFrom.of_finish {s u : State} (he : s.phase = .eval) (ha : u.attempt = s.attempt) {code : Code}
    (hcode : code ∈ [Code.ok, .valueRejected, .exhausted]) (c : Code) (d0 d1 : Word) :
    FinishedFrom s (u.finish code c d0 d1) where
  from_eval := he
  done := rfl
  irq := setIrq_doneIrq_bit u
  attempt := ha
  code := hcode

/-- A failed attempt that goes idle has exhausted the command (43_retry.md R255). -/
theorem failAttempt_idle {s : State} (he : s.phase = .eval) {c : Code} (h : (s.failAttempt c).phase = .idle) :
    FinishedFrom s (s.failAttempt c) := by
  rcases failAttempt_cases s c with ⟨-, e⟩ | ⟨-, e⟩ <;> rw [e] at h ⊢
  · simp at h
  · exact .of_finish (u := s.report c s.attempt) he rfl (by decide) _ _ _

/-- The code of an accepted response is OK or VALUE_REJECTED (41_frame_codec.md R171). -/
theorem judge_accept_code {p : Params} {op : TransOp} {rx : List Byte} {sent : Byte} {code : Code} {a b : Word}
    (h : judge p op rx sent = .accept code a b) : code ∈ [Code.ok, .valueRejected, .exhausted] := by
  rcases judge_cases p op rx sent with ⟨_, _, e⟩ | ⟨_, e⟩ | e | e <;> rw [e] at h <;> cases h <;> decide

/-- An EVAL cycle over a judged response that goes idle finishes the command. -/
theorem evalCycle_judge_idle {s : State} (he : s.phase = .eval) {p : Params} {op : TransOp} {rx : List Byte}
    {sent : Byte} (h : (s.evalCycle (judge p op rx sent)).phase = .idle) :
    FinishedFrom s (s.evalCycle (judge p op rx sent)) := by
  rcases evalCycle_cases s (judge p op rx sent) with ⟨code, a, b, -, hv, e⟩ | ⟨c, -, -, e⟩ | ⟨-, e⟩ <;> rw [e] at h ⊢
  · exact .of_finish he rfl (judge_accept_code hv) _ _ _
  · exact failAttempt_idle he h
  · exact failAttempt_idle he h

/-- One cycle of the phase table that ends a running command is the EVAL cycle that finishes it. -/
theorem sequencerCycle_idle {s : State} (hp : s.phase ≠ .idle) (h : s.sequencerCycle.phase = .idle) :
    FinishedFrom s s.sequencerCycle := by
  by_cases ht : s.phase.transmitting = true
  · rw [sequencerCycle_of_transmitting ht] at h
    exact absurd h (transmitCycle_ne_idle hp _)
  cases hph : s.phase
  case idle => exact absurd hph hp
  case receive =>
    rw [sequencerCycle_of_receive hph] at h
    exact absurd h (receiveCycle_ne_idle hp _)
  case eval =>
    rw [sequencerCycle_of_eval hph] at h ⊢
    cases hop : TransOp.ofCode s.op with
    | none => exact absurd (evalBuffer_of_none hop ▸ h) hp
    | some op =>
      rw [evalBuffer_of_some hop] at h ⊢
      exact evalCycle_judge_idle hph h
  all_goals simp [hph, Phase.transmitting] at ht

theorem sendFrame_ne_idle {s : State} (hp : s.phase ≠ .idle) (bs : List Byte) : (s.sendFrame bs).phase ≠ .idle := by
  by_cases ht : s.phase.transmitting = true
  · rw [sendFrame_of_transmitting ht]
    exact transmitCycle_ne_idle (s := s.loadRequest bs) hp _
  · rwa [sendFrame_of_not_transmitting ht]

theorem judgeFrame_idle {s : State} (hp : s.phase ≠ .idle) {op : TransOp} {bs : List Byte}
    (h : (s.judgeFrame op bs).phase = .idle) : FinishedFrom s (s.judgeFrame op bs) := by
  by_cases he : s.phase = .eval
  · rw [judgeFrame_of_eval he] at h ⊢
    obtain ⟨-, hdone, hirq, hatt, hcode⟩ := evalCycle_judge_idle (s := s.loadResponse bs) he h
    exact ⟨he, hdone, hirq, hatt, hcode⟩
  · exact absurd (judgeFrame_of_not_eval he op bs ▸ h) hp

/-- Settles O50: the host's part leaves the phase and ATTEMPTS, and of the sequencer's operations only the EVAL cycle
goes idle, by finishing. -/
theorem idleIsReachedByFinishing : Obligations.IdleIsReachedByFinishing := by
  intro s t hr hp hst hidle
  rcases step_cases s with ⟨hr', -⟩ | ⟨-, -, e⟩ | ⟨-, -, u, v, hu, hv, e⟩
  · simp [hr] at hr'
  · simp [e] at hst
  rw [e] at hst
  cases hst
  obtain ⟨hside, -⟩ := hostPart_busy_withHostSide hp hu
  obtain ⟨hphase, hop, hpar, hattempt⟩ := fields_of_withHostSide hside
  have hpu : u.phase ≠ .idle := hphase ▸ hp
  have finished : FinishedFrom u v := by
    rcases sequencerPart_cases hop hpar hv with
      ⟨hi, -⟩ | ⟨-, rfl⟩ | ⟨op, i, -, -, -, rfl⟩ | ⟨op, i, -, -, -, -, rfl⟩
    · exact absurd hi hp
    · exact sequencerCycle_idle hpu hidle
    · exact absurd hidle (sendFrame_ne_idle hpu _)
    · exact judgeFrame_idle hpu hidle
  obtain ⟨heval, hdone, hirq, hatt, hcode⟩ := finished
  exact ⟨hphase ▸ heval, hdone, hirq, hatt.trans hattempt, hcode⟩

end Sys2Proof.Machine

/-! ## The decoder and the encoder -/

namespace Sys2Proof.Machine

open Sys2Proof.Claims

/-! ### Command words -/

/-- The opcode map, row by row: a word's command is the row at its bits 3:0, applied to its bits 31:4 (30_encoding.md
R90, R91). -/
theorem decodeCommand_of_row {w : Word} {row : BitVec 28 → Instr}
    (h : opcodeMap[(w.extractLsb' 0 4).toNat]? = some row) : decodeCommand w = row (w.extractLsb' 4 28) := by
  have hlt : (w.extractLsb' 0 4).toNat < 16 := (w.extractLsb' 0 4).isLt
  unfold decodeCommand
  generalize (w.extractLsb' 0 4).toNat = n at h hlt
  interval_cases n <;> cases h <;> rfl

/-- Every opcode has its row. -/
theorem exists_row {n : Nat} (h : n < 16) : ∃ row, opcodeMap[n]? = some row :=
  ⟨_, List.getElem?_eq_getElem (l := opcodeMap) h⟩

/-- The opcode map has sixteen rows. -/
theorem lt_of_row {n : Nat} {row : BitVec 28 → Instr} (h : opcodeMap[n]? = some row) : n < 16 :=
  (List.getElem?_eq_some_iff.mp h).1

/-- A row of the opcode map is encoded as the command word with the row's opcode (R90). -/
theorem encode_row (p : Params) {n : Nat} {row : BitVec 28 → Instr} (h : opcodeMap[n]? = some row) (g : BitVec 28) :
    encode p (row g) = wordBytes (commandWord g (BitVec.ofNat 4 n)) := by
  have hlt := lt_of_row h
  interval_cases n <;> cases h <;> rfl

/-- A row of the opcode map stands on the CMD port, and nothing is asked of its fields. -/
theorem row_contexts {n : Nat} {row : BitVec 28 → Instr} (h : opcodeMap[n]? = some row) (g : BitVec 28) :
    (row g).contexts = [.command] ∧ (row g).encodable = true := by
  have hlt := lt_of_row h
  interval_cases n <;> cases h <;> exact ⟨rfl, rfl⟩

/-- An instruction that may stand on the CMD port is a row of the opcode map. -/
theorem exists_row_of_command {i : Instr} (h : .command ∈ i.contexts) :
    ∃ (n : Nat) (row : BitVec 28 → Instr) (g : BitVec 28), opcodeMap[n]? = some row ∧ i = row g := by
  cases i with
  | reserved0 g => exact ⟨0x0, _, g, rfl, rfl⟩
  | crcInit g => exact ⟨0x1, _, g, rfl, rfl⟩
  | crcByte g => exact ⟨0x2, _, g, rfl, rfl⟩
  | readTemp g => exact ⟨0x3, _, g, rfl, rfl⟩
  | readEmis g => exact ⟨0x4, _, g, rfl, rfl⟩
  | writeId g => exact ⟨0x5, _, g, rfl, rfl⟩
  | writeEmis g => exact ⟨0x6, _, g, rfl, rfl⟩
  | co2Query g => exact ⟨0x7, _, g, rfl, rfl⟩
  | co2Status g => exact ⟨0x8, _, g, rfl, rfl⟩
  | asciiRead g => exact ⟨0x9, _, g, rfl, rfl⟩
  | reservedA g => exact ⟨0xA, _, g, rfl, rfl⟩
  | reservedB g => exact ⟨0xB, _, g, rfl, rfl⟩
  | reservedC g => exact ⟨0xC, _, g, rfl, rfl⟩
  | reservedD g => exact ⟨0xD, _, g, rfl, rfl⟩
  | reservedE g => exact ⟨0xE, _, g, rfl, rfl⟩
  | reservedF g => exact ⟨0xF, _, g, rfl, rfl⟩
  | _ => simp [Instr.contexts] at h

/-- The four lanes of a word on the CMD port are read as that word's command (20_memory.md R66). -/
theorem decode_wordBytes (p : Params) (w : Word) : decode p .command (wordBytes w) = .ok (decodeCommand w) := by
  simp [wordBytes, decode]

/-- Only four bytes are read on the CMD port, and they are the lanes of one word. -/
theorem eq_wordBytes_of_decode_command {p : Params} {bs : List Byte} {i : Instr} (h : decode p .command bs = .ok i) :
    ∃ w, bs = wordBytes w ∧ i = decodeCommand w := by
  unfold decode at h
  split at h
  next => cases h; exact ⟨_, (wordBytes_packWord ..).symm, rfl⟩
  all_goals contradiction

/-- A command word is read back, its ignored bits with it. -/
theorem decode_encode_row (p : Params) {n : Nat} {row : BitVec 28 → Instr} (h : opcodeMap[n]? = some row)
    (g : BitVec 28) : decode p .command (encode p (row g)) = .ok (row g) := by
  have hlt := lt_of_row h
  have hrow : opcodeMap[((commandWord g (BitVec.ofNat 4 n)).extractLsb' 0 4).toNat]? = some row := by
    rw [commandWord_opcode, BitVec.toNat_ofNat, Nat.mod_eq_of_lt hlt, h]
  rw [encode_row p h, decode_wordBytes, decodeCommand_of_row hrow, commandWord_ignored]

/-- A word's command is encoded as that word, and it is a command row. -/
theorem encode_decodeCommand (p : Params) (w : Word) :
    encode p (decodeCommand w) = wordBytes w ∧ (decodeCommand w).contexts = [.command]
      ∧ (decodeCommand w).encodable = true := by
  obtain ⟨row, hrow⟩ := exists_row (w.extractLsb' 0 4).isLt
  rw [decodeCommand_of_row hrow]
  refine ⟨?_, row_contexts hrow _⟩
  rw [encode_row p hrow, BitVec.ofNat_toNat, BitVec.setWidth_eq, commandWord_split]

/-! ### Request frames -/

/-- A read request is read back (30_encoding.md R97). -/
theorem decodeReadRequest_frame (fn : Byte) (mk : Byte → Half → Half → Byte → Byte → Instr) (a : Byte)
    (r n : Half) (lo hi : Byte) :
    decodeReadRequest fn mk ([a, fn] ++ bigEndian r ++ bigEndian n ++ [lo, hi]) = .ok (mk a r n lo hi) := by
  simp [decodeReadRequest, bigEndian]

/-- A write request is read back (R97). -/
theorem decodeWriteRequest_frame (regHi regLo : Byte) (mk : Byte → Byte → Byte → Byte → Instr)
    (a v lo hi : Byte) :
    decodeWriteRequest regHi regLo mk [a, 0x06#8, regHi, regLo, 0x00#8, v, lo, hi] = .ok (mk a v lo hi) := by
  simp [decodeWriteRequest]

/-- A literal request is read back (R99). -/
theorem decodeLiteralRequest_toList (mk : Frame8 → Instr) (f : Frame8) :
    decodeLiteralRequest mk f.toList = .ok (mk f) := rfl

/-- A read request that decodes is an instruction of its row. -/
theorem decodeReadRequest_ok {fn : Byte} {mk : Byte → Half → Half → Byte → Byte → Instr} {bs : List Byte} {i : Instr}
    (h : decodeReadRequest fn mk bs = .ok i) : ∃ a r n lo hi, i = mk a r n lo hi := by
  unfold decodeReadRequest at h
  repeat' split at h
  all_goals cases h
  exact ⟨_, _, _, _, _, rfl⟩

/-- A write request that decodes is an instruction of its row. -/
theorem decodeWriteRequest_ok {regHi regLo : Byte} {mk : Byte → Byte → Byte → Byte → Instr} {bs : List Byte}
    {i : Instr} (h : decodeWriteRequest regHi regLo mk bs = .ok i) : ∃ a v lo hi, i = mk a v lo hi := by
  unfold decodeWriteRequest at h
  repeat' split at h
  all_goals cases h
  exact ⟨_, _, _, _, rfl⟩

/-- A literal request that decodes is an instruction of its row. -/
theorem decodeLiteralRequest_ok {mk : Frame8 → Instr} {bs : List Byte} {i : Instr}
    (h : decodeLiteralRequest mk bs = .ok i) : ∃ f, i = mk f := by
  unfold decodeLiteralRequest at h
  split at h <;> cases h
  exact ⟨_, rfl⟩

/-- The ASCII request decodes to its one instruction. -/
theorem decodeAsciiRequest_ok {p : Params} {bs : List Byte} {i : Instr} (h : decodeAsciiRequest p bs = .ok i) :
    i = .reqAsciiRead := by
  unfold decodeAsciiRequest at h
  repeat' split at h
  all_goals cases h
  rfl

/-- An instruction that may stand as the request of a command is read back there. -/
theorem decodeRequest_encode (p : Params) {op : TransOp} {i : Instr} (h : .request op ∈ i.contexts) :
    decodeRequest p op (encode p i) = .ok i := by
  cases i <;> simp only [Instr.contexts, List.mem_cons, List.not_mem_nil, or_false, or_self,
    DecodeContext.request.injEq, reduceCtorEq] at h
  case reqReadTemp a r n lo hi => subst h; exact decodeReadRequest_frame 0x03#8 .reqReadTemp a r n lo hi
  case reqReadEmis a r n lo hi => subst h; exact decodeReadRequest_frame 0x04#8 .reqReadEmis a r n lo hi
  case reqWriteId a v lo hi => subst h; exact decodeWriteRequest_frame 0x03#8 0xE8#8 .reqWriteId a v lo hi
  case reqWriteEmis a v lo hi => subst h; exact decodeWriteRequest_frame 0x03#8 0x20#8 .reqWriteEmis a v lo hi
  case reqCo2Query f => subst h; exact decodeLiteralRequest_toList ..
  case reqCo2Status f => subst h; exact decodeLiteralRequest_toList ..
  case reqAsciiRead => subst h; exact decodeAsciiRequest_asciiRequest p

/-- A request that decodes may stand where it was read, and it has an encoding. -/
theorem contexts_of_decodeRequest {p : Params} {op : TransOp} {bs : List Byte} {i : Instr}
    (h : decodeRequest p op bs = .ok i) : .request op ∈ i.contexts ∧ i.encodable = true := by
  cases op with
  | readTemp => obtain ⟨a, r, n, lo, hi, rfl⟩ := decodeReadRequest_ok h; exact ⟨.head _, rfl⟩
  | readEmis => obtain ⟨a, r, n, lo, hi, rfl⟩ := decodeReadRequest_ok h; exact ⟨.head _, rfl⟩
  | writeId => obtain ⟨a, v, lo, hi, rfl⟩ := decodeWriteRequest_ok h; exact ⟨.head _, rfl⟩
  | writeEmis => obtain ⟨a, v, lo, hi, rfl⟩ := decodeWriteRequest_ok h; exact ⟨.head _, rfl⟩
  | co2Query => obtain ⟨f, rfl⟩ := decodeLiteralRequest_ok h; exact ⟨.head _, rfl⟩
  | co2Status => obtain ⟨f, rfl⟩ := decodeLiteralRequest_ok h; exact ⟨.head _, rfl⟩
  | asciiRead => obtain rfl := decodeAsciiRequest_ok h; exact ⟨.head _, rfl⟩

/-! ### Response frames -/

/-- A line of the ASCII variant is what its decoder takes (30_encoding.md R102, 41_frame_codec.md R186). -/
theorem decodeAsciiResponse_eq_ok_iff {bs : List Byte} {i : Instr} :
    decodeAsciiResponse bs = .ok i ↔ isLine bs = true ∧ i = .rspAscii bs := by
  unfold decodeAsciiResponse isLine
  split
  next hlf =>
    cases bs.dropLast.contains 0x0A#8 <;> simp [hlf, eq_comm]
  next hlf => simp [hlf]

/-- A ReadTemperature response is read back (R98). -/
theorem decodeTempResponse_frame (x0 x1 x2 : Byte) (t u : Half) (lo hi : Byte) :
    decodeTempResponse ([x0, x1, x2] ++ bigEndian t ++ bigEndian u ++ [lo, hi])
      = .ok (.rspReadTemp x0 x1 x2 t u lo hi) := by
  simp [decodeTempResponse, bigEndian]

/-- A response of the fixed binary variant is read back (R100). -/
theorem decodeCo2Response_frame (x0 x1 x2 : Byte) (g : Half) (x5 x6 x7 : Byte) :
    decodeCo2Response ([x0, x1, x2] ++ bigEndian g ++ [x5, x6, x7]) = .ok (.rspCo2 x0 x1 x2 g x5 x6 x7) := by
  simp [decodeCo2Response, bigEndian]

/-- A ReadTemperature response that decodes is an instruction of its row. -/
theorem decodeTempResponse_ok {bs : List Byte} {i : Instr} (h : decodeTempResponse bs = .ok i) :
    ∃ x0 x1 x2 t u lo hi, i = .rspReadTemp x0 x1 x2 t u lo hi := by
  unfold decodeTempResponse at h
  split at h <;> cases h
  exact ⟨_, _, _, _, _, _, _, rfl⟩

/-- A ReadEmissivity response that decodes is an instruction of its row. -/
theorem decodeEmisResponse_ok {bs : List Byte} {i : Instr} (h : decodeEmisResponse bs = .ok i) :
    ∃ x0 x1 x2 x3 e lo hi, i = .rspReadEmis x0 x1 x2 x3 e lo hi := by
  unfold decodeEmisResponse at h
  split at h <;> cases h
  exact ⟨_, _, _, _, _, _, _, rfl⟩

/-- A write response that decodes is an instruction of its row. -/
theorem decodeWriteResponse_ok {bs : List Byte} {i : Instr} (h : decodeWriteResponse bs = .ok i) :
    ∃ x0 x1 x2 x3 x4 v lo hi, i = .rspWrite x0 x1 x2 x3 x4 v lo hi := by
  unfold decodeWriteResponse at h
  split at h <;> cases h
  exact ⟨_, _, _, _, _, _, _, _, rfl⟩

/-- A response of the fixed binary variant that decodes is an instruction of its row. -/
theorem decodeCo2Response_ok {bs : List Byte} {i : Instr} (h : decodeCo2Response bs = .ok i) :
    ∃ x0 x1 x2 g x5 x6 x7, i = .rspCo2 x0 x1 x2 g x5 x6 x7 := by
  unfold decodeCo2Response at h
  split at h <;> cases h
  exact ⟨_, _, _, _, _, _, _, rfl⟩

/-- An instruction that may stand as the response of a command is read back there, if it has an encoding: a line ends
in its one line feed. -/
theorem decodeResponse_encode (p : Params) {op : TransOp} {i : Instr} (henc : i.encodable = true)
    (h : .response op ∈ i.contexts) : decodeResponse op (encode p i) = .ok i := by
  cases i <;> simp only [Instr.contexts, List.mem_cons, List.not_mem_nil, or_false, or_self,
    DecodeContext.response.injEq, reduceCtorEq] at h
  case rspReadTemp x0 x1 x2 t u lo hi => subst h; exact decodeTempResponse_frame ..
  case rspReadEmis x0 x1 x2 x3 e lo hi => subst h; rfl
  case rspWrite x0 x1 x2 x3 x4 v lo hi => obtain rfl | rfl := h <;> rfl
  case rspCo2 x0 x1 x2 g x5 x6 x7 => obtain rfl | rfl := h <;> exact decodeCo2Response_frame ..
  case rspAscii line => subst h; exact decodeAsciiResponse_eq_ok_iff.mpr ⟨henc, rfl⟩

/-- A response that decodes may stand where it was read, and it has an encoding. -/
theorem contexts_of_decodeResponse {op : TransOp} {bs : List Byte} {i : Instr} (h : decodeResponse op bs = .ok i) :
    .response op ∈ i.contexts ∧ i.encodable = true := by
  cases op with
  | readTemp => obtain ⟨x0, x1, x2, t, u, lo, hi, rfl⟩ := decodeTempResponse_ok h; exact ⟨.head _, rfl⟩
  | readEmis => obtain ⟨x0, x1, x2, x3, e, lo, hi, rfl⟩ := decodeEmisResponse_ok h; exact ⟨.head _, rfl⟩
  | writeId => obtain ⟨x0, x1, x2, x3, x4, v, lo, hi, rfl⟩ := decodeWriteResponse_ok h; exact ⟨.head _, rfl⟩
  | writeEmis =>
    obtain ⟨x0, x1, x2, x3, x4, v, lo, hi, rfl⟩ := decodeWriteResponse_ok h
    exact ⟨.tail _ (.head _), rfl⟩
  | co2Query => obtain ⟨x0, x1, x2, g, x5, x6, x7, rfl⟩ := decodeCo2Response_ok h; exact ⟨.head _, rfl⟩
  | co2Status => obtain ⟨x0, x1, x2, g, x5, x6, x7, rfl⟩ := decodeCo2Response_ok h; exact ⟨.tail _ (.head _), rfl⟩
  | asciiRead =>
    obtain ⟨hline, rfl⟩ := decodeAsciiResponse_eq_ok_iff.mp h
    exact ⟨.head _, hline⟩

/-! ### The round trip -/

/-- Settles O5: place by place, a row of the opcode map, a request and a response are each read back. -/
theorem decodeOfEncode : Obligations.DecodeOfEncode := by
  intro p i henc c hc
  cases c with
  | command =>
    obtain ⟨n, row, g, hrow, rfl⟩ := exists_row_of_command hc
    exact decode_encode_row p hrow g
  | request op => exact decodeRequest_encode p hc
  | response op => exact decodeResponse_encode p henc hc

/-- Settles O6: a word's command keeps its opcode and its ignored bits, and a frame's instruction keeps its bytes. -/
theorem encodeOfDecode : Obligations.EncodeOfDecode := by
  intro p c bs i h
  cases c with
  | command =>
    obtain ⟨w, rfl, rfl⟩ := eq_wordBytes_of_decode_command h
    obtain ⟨hbytes, hctx, henc⟩ := encode_decodeCommand p w
    exact ⟨hbytes, hctx ▸ .head _, henc⟩
  | request op => exact ⟨encode_of_decodeRequest h, contexts_of_decodeRequest h⟩
  | response op => exact ⟨encode_of_decodeResponse h, contexts_of_decodeResponse h⟩

/-! ### The map and the sample words -/

/-- The bytes of a word, shifted down lane by lane. -/
theorem wordBytes_eq_shifts (w : Word) :
    wordBytes w = [w.setWidth 8, (w >>> 8).setWidth 8, (w >>> 16).setWidth 8, (w >>> 24).setWidth 8] := by
  simp [wordBytes, lane, BitVec.setWidth_ushiftRight_eq_extractLsb, BitVec.setWidth_eq_extractLsb' (x := w)]

/-- Settles O7: a word's command is its row of the opcode map, and each sample word is read by evaluation,
the ASCII request as the frame of its control byte. -/
theorem opcodeMapAndSampleWords : Obligations.OpcodeMapAndSampleWords := by
  intro p
  refine ⟨fun w => ?_, rfl, rfl, rfl, rfl, rfl, fun hctrl => ?_, rfl⟩
  · obtain ⟨row, hrow⟩ := exists_row (w.extractLsb' 0 4).isLt
    have hop : (w.extractLsb' 0 4).toNat = w.toNat % 16 := by simp
    have hign : w.extractLsb' 4 28 = (w >>> 4).setWidth 28 := BitVec.setWidth_ushiftRight_eq_extractLsb.symm
    refine ⟨row, hop ▸ hrow, ?_⟩
    rw [← wordBytes_eq_shifts, decode_wordBytes, decodeCommand_of_row hrow, hign]
  · have hread := decodeAsciiRequest_asciiRequest p
    rwa [hctrl] at hread

end Sys2Proof.Machine

/-! ## The CRC generator

A shift step is linear over XOR and, as its bit 15 shows whether the polynomial went in, invertible. Linearity gives
the table form and the residue (40_crc.md R142, R146, R148), invertibility the detection of errors (R147). -/

namespace Sys2Proof.Machine

open Sys2Proof.Claims

/-! ### Shift steps -/

theorem crcShift_of_lsb_false {c : Half} (h : c.getLsbD 0 = false) : crcShift c = c >>> 1 :=
  if_neg (Bool.eq_false_iff.mp h)

theorem crcShift_of_lsb_true {c : Half} (h : c.getLsbD 0 = true) : crcShift c = c >>> 1 ^^^ 0xA001#16 := if_pos h

/-- The polynomial goes in for `c ^^^ d` exactly if it goes in for one of `c` and `d`. -/
theorem crcShift_xor (c d : Half) : crcShift (c ^^^ d) = crcShift c ^^^ crcShift d := by
  have hlsb : (c ^^^ d).getLsbD 0 = (c.getLsbD 0 ^^ d.getLsbD 0) := BitVec.getLsbD_xor
  cases hc : c.getLsbD 0 <;> cases hd : d.getLsbD 0 <;> rw [hc, hd] at hlsb
  case false.false =>
    rw [crcShift_of_lsb_false hlsb, crcShift_of_lsb_false hc, crcShift_of_lsb_false hd,
      BitVec.ushiftRight_xor_distrib]
  case false.true =>
    rw [crcShift_of_lsb_true hlsb, crcShift_of_lsb_false hc, crcShift_of_lsb_true hd,
      BitVec.ushiftRight_xor_distrib, BitVec.xor_assoc]
  case true.false =>
    rw [crcShift_of_lsb_true hlsb, crcShift_of_lsb_true hc, crcShift_of_lsb_false hd,
      BitVec.ushiftRight_xor_distrib]
    ac_rfl
  case true.true =>
    calc crcShift (c ^^^ d) = (c >>> 1 ^^^ d >>> 1) ^^^ (0xA001#16 ^^^ 0xA001#16) := by
          rw [crcShift_of_lsb_false hlsb, BitVec.ushiftRight_xor_distrib, BitVec.xor_self, BitVec.xor_zero]
      _ = crcShift c ^^^ crcShift d := by
          rw [crcShift_of_lsb_true hc, crcShift_of_lsb_true hd]
          ac_rfl

/-- Bit 15 of a shifted CRC is the bit that was shifted out, as 0xA001 has bit 15 set. -/
theorem crcShift_msb (c : Half) : (crcShift c).getLsbD 15 = c.getLsbD 0 := by
  cases h : c.getLsbD 0
  · simp [crcShift_of_lsb_false h]
  · simp [crcShift_of_lsb_true h]

/-- Nothing but 0 is shifted to 0. -/
theorem eq_zero_of_crcShift_eq_zero {c : Half} (h : crcShift c = 0) : c = 0 := by
  have hlsb : c.getLsbD 0 = false := by rw [← crcShift_msb, h]; rfl
  have hshift : c >>> 1 = 0 := by rw [← crcShift_of_lsb_false hlsb, h]
  apply BitVec.eq_of_getLsbD_eq
  intro i _
  cases i with
  | zero => simpa using hlsb
  | succ i => simpa [Nat.add_comm] using congrArg (·.getLsbD i) hshift

@[simp] theorem crcShifts_zero (k : Nat) : crcShifts k 0 = 0 := by
  induction k with
  | zero => rfl
  | succ k ih => exact ih

theorem crcShifts_xor (k : Nat) (c d : Half) : crcShifts k (c ^^^ d) = crcShifts k c ^^^ crcShifts k d := by
  induction k generalizing c d with
  | zero => rfl
  | succ k ih => simp only [crcShifts, crcShift_xor, ih]

theorem crcShifts_eq_zero_iff {k : Nat} {c : Half} : crcShifts k c = 0 ↔ c = 0 := by
  refine ⟨fun h => ?_, fun h => h ▸ crcShifts_zero k⟩
  induction k generalizing c with
  | zero => exact h
  | succ k ih => exact eq_zero_of_crcShift_eq_zero (ih h)

theorem crcShifts_inj {k : Nat} {c d : Half} : crcShifts k c = crcShifts k d ↔ c = d := by
  rw [← BitVec.xor_eq_zero_iff, ← crcShifts_xor, ← BitVec.xor_eq_zero_iff (x := c)]
  exact crcShifts_eq_zero_iff

theorem crcShifts_add (m n : Nat) (c : Half) : crcShifts (m + n) c = crcShifts n (crcShifts m c) := by
  induction m generalizing c with
  | zero => rw [Nat.zero_add, crcShifts]
  | succ m ih => rw [Nat.succ_add, crcShifts, crcShifts, ih]

/-- While zeros are shifted out the polynomial stays out. -/
theorem crcShifts_of_low_zero {k : Nat} {c : Half} (h : ∀ i < k, c.getLsbD i = false) : crcShifts k c = c >>> k := by
  induction k generalizing c with
  | zero => simp [crcShifts]
  | succ k ih =>
    have hrest : ∀ i < k, (c >>> 1).getLsbD i = false := fun i hi => by
      simpa [Nat.add_comm] using h (i + 1) (by omega)
    rw [crcShifts, crcShift_of_lsb_false (h 0 (by omega)), ih hrest, ← BitVec.shiftRight_add, Nat.add_comm]

/-! ### The byte step -/

/-- A 16-bit value as the sum over XOR of its bytes, each in its place. -/
theorem be16_eq_xor (hi lo : Byte) : be16 hi lo = lo.setWidth 16 ^^^ hi.setWidth 16 <<< 8 := by
  apply BitVec.eq_of_getLsbD_eq
  intro i hi16
  rw [getLsbD_be16]
  by_cases h : i < 8
  · simp [h, hi16]
  · have hlo : lo.getLsbD i = false := BitVec.getLsbD_of_ge lo i (by omega)
    simp [h, hi16, hlo]

theorem loByte_eq_setWidth (x : Half) : loByte x = x.setWidth 8 := (BitVec.setWidth_eq_extractLsb' (by decide)).symm

theorem zext_hiByte (x : Half) : (hiByte x).setWidth 16 = x >>> 8 := by
  rw [hiByte, ← BitVec.setWidth_ushiftRight_eq_extractLsb]
  apply BitVec.eq_of_getLsbD_eq
  intro i hi
  by_cases h : i < 8
  · simp [h, hi]
  · simp [h, BitVec.getLsbD_of_ge x (8 + i) (by omega)]

/-- Eight shift steps bring the high byte down without the polynomial. -/
theorem crcShifts_highByte (b : Byte) : crcShifts 8 (b.setWidth 16 <<< 8) = b.setWidth 16 := by
  rw [crcShifts_of_low_zero fun i hi => by simp [hi]]
  apply BitVec.eq_of_getLsbD_eq
  intro i hi
  by_cases h : i < 8
  · simp [h, hi, show 8 + i < 16 by omega]
  · simp [BitVec.getLsbD_of_ge b i (by omega)]

/-- Eight shift steps: the low byte meets the table, and the high byte only moves down. -/
theorem crcShifts_eight (x : Half) : crcShifts 8 x = x >>> 8 ^^^ crcTable (x.setWidth 8) := by
  have hbytes : x = (loByte x).setWidth 16 ^^^ (hiByte x).setWidth 16 <<< 8 := by
    rw [← be16_eq_xor, be16_hiByte_loByte]
  calc crcShifts 8 x = crcShifts 8 ((loByte x).setWidth 16) ^^^ (hiByte x).setWidth 16 := by
        rw [← crcShifts_highByte (hiByte x), ← crcShifts_xor, ← hbytes]
    _ = x >>> 8 ^^^ crcTable (x.setWidth 8) := by
        rw [zext_hiByte, loByte_eq_setWidth, BitVec.xor_comm, crcTable, crcUpdate, BitVec.zero_xor]

/-- Settles O1: the byte reaches only the low byte of the sum that is shifted. -/
theorem crcUpdateTableForm : Obligations.CrcUpdateTableForm := by
  intro c b
  have hbyte : (b.setWidth 16 : Half) >>> 8 = 0#16 := by
    apply BitVec.eq_of_getLsbD_eq
    intro i _
    simp
  have hhigh : (c ^^^ b.setWidth 16) >>> 8 = c >>> 8 := by
    rw [BitVec.ushiftRight_xor_distrib, hbyte, BitVec.xor_zero]
  rw [crcUpdate, crcShifts_eight, hhigh]

theorem crcUpdate_xor (c d : Half) (a b : Byte) :
    crcUpdate (c ^^^ d) (a ^^^ b) = crcUpdate c a ^^^ crcUpdate d b := by
  rw [crcUpdate, BitVec.setWidth_xor, crcUpdate, crcUpdate, ← crcShifts_xor]
  congr 1
  ac_rfl

/-- Settles O2: XOR goes through the byte step, as it does through each of its shift steps. -/
theorem crcUpdateLinear : Obligations.CrcUpdateLinear := ⟨fun _ _ _ _ => crcUpdate_xor .., rfl⟩

/-! ### Residues -/

theorem crcFrom_pair (c : Half) (lo hi : Byte) : crcFrom c [lo, hi] = crcShifts 16 (c ^^^ be16 hi lo) := by
  calc crcFrom c [lo, hi] = crcShifts 8 (crcShifts 8 (c ^^^ lo.setWidth 16) ^^^ hi.setWidth 16) := rfl
    _ = crcShifts 8 (crcShifts 8 (c ^^^ lo.setWidth 16 ^^^ hi.setWidth 16 <<< 8)) := by
      rw [← crcShifts_highByte hi, ← crcShifts_xor, crcShifts_highByte]
    _ = crcShifts 16 (c ^^^ be16 hi lo) := by rw [← crcShifts_add, be16_eq_xor, BitVec.xor_assoc]

/-- The residue of a frame is 0 exactly if its last two bytes carry the CRC of the bytes before them. -/
theorem crc16_append_pair_eq_zero_iff (m : List Byte) (lo hi : Byte) :
    crc16 (m ++ [lo, hi]) = 0 ↔ crc16 m = be16 hi lo := by
  rw [crc16, crcFrom_append, crcFrom_pair, crcShifts_eq_zero_iff]
  exact BitVec.xor_eq_zero_iff

/-- A frame of two or more bytes is a sequence and two more bytes. -/
theorem exists_append_pair {f : List Byte} (h : 2 ≤ f.length) : ∃ m lo hi, f = m ++ [lo, hi] := by
  obtain ⟨lo, hi, hpair⟩ := List.length_eq_two.mp (show (f.drop (f.length - 2)).length = 2 by simp; omega)
  exact ⟨f.take (f.length - 2), lo, hi, by rw [← hpair, List.take_append_drop]⟩

theorem crcOk_append_pair (m : List Byte) (lo hi : Byte) :
    crcOk (m ++ [lo, hi]) = true ↔ crc16 m = be16 hi lo := by
  simp [crcOk, receivedCrc]

/-- The check of R145 is the residue test (40_crc.md R146). -/
theorem crcOk_iff_crc16_eq_zero {f : List Byte} (h : 2 ≤ f.length) : crcOk f = true ↔ crc16 f = 0 := by
  obtain ⟨m, lo, hi, rfl⟩ := exists_append_pair h
  rw [crcOk_append_pair, crc16_append_pair_eq_zero_iff]

theorem crc16_withCrc (m : List Byte) : crc16 (withCrc m) = 0 :=
  (crc16_append_pair_eq_zero_iff ..).mpr (be16_hiByte_loByte _).symm

/-- Settles O3: both halves are the one residue criterion. -/
theorem crcResidueIsZero : Obligations.CrcResidueIsZero := ⟨crc16_withCrc, fun _ => crcOk_iff_crc16_eq_zero⟩

/-! ### Error detection -/

theorem crcUpdate_left_inj {c d : Half} {b : Byte} : crcUpdate c b = crcUpdate d b ↔ c = d := by
  rw [crcUpdate, crcUpdate, crcShifts_inj, BitVec.xor_left_inj]

theorem crcUpdate_right_inj {c : Half} {a b : Byte} : crcUpdate c a = crcUpdate c b ↔ a = b := by
  rw [crcUpdate, crcUpdate, crcShifts_inj, BitVec.xor_right_inj]
  refine ⟨fun h => ?_, congrArg _⟩
  simpa using congrArg (BitVec.setWidth 8) h

theorem crcFrom_inj {bs : List Byte} {c d : Half} : crcFrom c bs = crcFrom d bs ↔ c = d := by
  induction bs generalizing c d with
  | nil => rfl
  | cons b bs ih => rw [crcFrom_cons, crcFrom_cons, ih, crcUpdate_left_inj]

/-- Changing one byte changes the CRC: it changes the running CRC after that byte, and no later byte undoes that. -/
theorem crcFrom_set_ne {bs : List Byte} {i : Nat} {x : Byte} (hi : i < bs.length) (hx : x ≠ bs.getD i 0) (c : Half) :
    crcFrom c (bs.set i x) ≠ crcFrom c bs := by
  induction bs generalizing i c with
  | nil => simp at hi
  | cons b bs ih =>
    cases i with
    | zero =>
      rw [List.set_cons_zero, crcFrom_cons, crcFrom_cons, Ne, crcFrom_inj, crcUpdate_right_inj]
      exact hx
    | succ i =>
      rw [List.set_cons_succ, crcFrom_cons, crcFrom_cons]
      exact ih (by simpa using hi) hx _

/-- A flipped bit changes its byte. -/
theorem xor_one_shiftLeft_ne (b : Byte) {bit : Nat} (h : bit < 8) : b ^^^ 1#8 <<< bit ≠ b := by
  intro heq
  have hbit := congrArg (·.getLsbD bit) heq
  simp [h] at hbit

/-- Settles O4: the encoded sequence has residue 0, and a frame with one byte changed has another residue. -/
theorem crcDetectsSingleBitErrors : Obligations.CrcDetectsSingleBitErrors := by
  intro b
  have hlen : 2 ≤ (withCrc b).length := by simp
  refine ⟨(crcOk_iff_crc16_eq_zero hlen).mpr (crc16_withCrc b), fun byte bit hbyte hbit => ?_⟩
  have hflip : crc16 (flipBit (withCrc b) byte bit) ≠ crc16 (withCrc b) :=
    crcFrom_set_ne hbyte (xor_one_shiftLeft_ne _ hbit) _
  rw [crc16_withCrc] at hflip
  have hflen : 2 ≤ (flipBit (withCrc b) byte bit).length := by simp [flipBit]
  exact Bool.eq_false_iff.mpr (mt (crcOk_iff_crc16_eq_zero hflen).mp hflip)

end Sys2Proof.Machine

/-! ## The CRC commands -/

namespace Sys2Proof.Machine

open Sys2Proof.Claims

/-- A command without bus activity ends in the state the statements name (44_commands.md R280, R281). -/
theorem finish_eq_finishedAtOnce {s : State} (hp : s.phase = .idle) (op : BitVec 4) (code : Code) (data0 : Word) :
    (s.acceptCommon op).noRequest.finish code .ok data0 0 = finishedAtOnce s op code data0 := by
  rw [State.finish, ← hp]
  rfl

/-- The same for a command that writes CRC too (40_crc.md R149, R150). -/
theorem finish_crc_eq_finishedAtOnce {s : State} (hp : s.phase = .idle) (op : BitVec 4) (c : Half) (data0 : Word) :
    { (s.acceptCommon op).noRequest with crc := c }.finish .ok .ok data0 0
      = { finishedAtOnce s op .ok data0 with crc := c } := by
  rw [← finish_eq_finishedAtOnce hp]
  rfl

theorem exec_crcInit (g : BitVec 28) (s : State) : exec (.crcInit g) s = .next (s.accept 0x1#4 fun t =>
    { t.noRequest with crc := 0xFFFF#16 }.finish .ok .ok (zext32 0xFFFF#16) 0) := rfl

theorem exec_crcByte (g : BitVec 28) (s : State) : exec (.crcByte g) s = .next (s.accept 0x2#4 fun t =>
    { t.noRequest with crc := crcUpdate t.crc (loByte t.regValue) }.finish .ok .ok
      (zext32 (crcUpdate t.crc (loByte t.regValue))) 0) := rfl

/-- Settles O11: accepted, the command finishes at once with the seed in CRC; dropped, it sets OVERRUN alone. -/
theorem crcInitResult : Obligations.CrcInitResult := by
  intro g s
  refine ⟨fun hp => ?_, fun hp => ?_⟩
  · rw [exec_crcInit, accept_idle hp, finish_crc_eq_finishedAtOnce hp]
    rfl
  · rw [exec_crcInit, accept_busy hp]
    rfl

/-- Settles O12: accepted, the command finishes at once with the stepped CRC; dropped, it sets OVERRUN alone. -/
theorem crcByteResult : Obligations.CrcByteResult := by
  intro g s
  refine ⟨fun hp => ?_, fun hp => ?_⟩
  · rw [exec_crcByte, accept_idle hp, finish_crc_eq_finishedAtOnce hp, ← loByte_eq_setWidth]
    rfl
  · rw [exec_crcByte, accept_busy hp]
    rfl

/-! ### The writers of CRC -/

theorem transact_crc (s : State) (op : TransOp) : (s.transact op).crc = s.crc := by
  rcases transact_cases s op with ⟨-, e⟩ | ⟨-, -, e⟩ | ⟨-, -, e⟩ <;> rw [e]
  · rfl
  · rfl
  · rfl

/-- A command whose body leaves CRC leaves it, accepted or dropped. -/
theorem accept_crc {f : State → State} (hf : ∀ t, (f t).crc = t.crc) (s : State) (o : BitVec 4) :
    (s.accept o f).crc = s.crc := by
  by_cases hp : s.phase = .idle
  · rw [accept_idle hp, hf]
    rfl
  · rw [accept_busy hp]
    rfl

theorem idle_of_accept_crc_ne {s : State} {o : BitVec 4} {f : State → State} (h : (s.accept o f).crc ≠ s.crc) :
    s.phase = .idle := by
  by_contra hp
  exact h (by rw [accept_busy hp]; rfl)

/-- Of the commands only CRC_INIT and CRC_BYTE change CRC, and only while idle (40_crc.md R151). -/
theorem crcCommand_of_exec_crc_ne {i : Instr} (hi : .command ∈ i.contexts) {s t : State} (h : exec i s = .next t)
    (hne : t.crc ≠ s.crc) : s.phase = .idle ∧ ∃ g, i = .crcInit g ∨ i = .crcByte g := by
  cases i with
  | crcInit g => cases h; exact ⟨idle_of_accept_crc_ne hne, g, .inl rfl⟩
  | crcByte g => cases h; exact ⟨idle_of_accept_crc_ne hne, g, .inr rfl⟩
  | readTemp | readEmis | writeId | writeEmis | co2Query | co2Status | asciiRead =>
    cases h
    exact absurd (accept_crc (fun _ => transact_crc ..) ..) hne
  | reserved0 | reservedA | reservedB | reservedC | reservedD | reservedE | reservedF =>
    cases h
    exact absurd (accept_crc (f := State.illegal) (fun _ => rfl) ..) hne
  | _ => simp [Instr.contexts] at hi

theorem State.commandWrite_iff (s : State) :
    s.commandWrite = true ↔ s.now.host.en = true ∧ s.now.host.we = true ∧ s.hostReg = .cmd := by
  simp [State.commandWrite, and_assoc]

/-- With a CMD write the host's part is the command the word decodes to (44_commands.md R280). -/
theorem hostPart_of_commandWrite {s : State} (h : s.commandWrite = true) :
    s.hostPart = exec (decodeCommand s.now.host.wdata) s := by
  simp [State.hostPart, State.fetchCommand, h, State.commandBytes, decode_wordBytes, Except.toOption]

/-- A register write changes CRC only where it names CRC (20_memory.md R64). -/
theorem crc_of_writeReg_crc_ne {s : State} {r : Reg} {w : Word} (h : (s.writeReg r w).crc ≠ s.crc) : r = .crc := by
  rcases writeReg_cases s r w with e | ⟨-, e⟩ | ⟨-, e⟩ | ⟨-, e⟩ | ⟨hr, -⟩ | ⟨-, e⟩ | ⟨-, e⟩
  case inr.inr.inr.inr.inl => exact hr
  all_goals exact absurd ((congrArg State.crc e).trans rfl) h

/-- Without a CMD write the host's part changes CRC only by a write to CRC. -/
theorem crcWrite_of_hostCycle_crc_ne {s : State} (h : s.hostCycle.crc ≠ s.crc) :
    s.now.host.en = true ∧ s.now.host.we = true ∧ s.hostReg = .crc := by
  unfold State.hostCycle at h
  split at h
  case isTrue hw =>
    obtain ⟨hen, hwe⟩ := Bool.and_eq_true_iff.mp hw
    exact ⟨hen, hwe, crc_of_writeReg_crc_ne h⟩
  case isFalse => exact absurd rfl h

/-- The sequencer's part leaves CRC: nothing runs while idle, and a running command leaves the host's registers
(40_crc.md R151). -/
theorem sequencerPart_crc {s u v : State} (hu : s.hostPart = .next u) (hv : s.sequencerPart u = .next v) :
    v.crc = u.crc := by
  by_cases hp : s.phase = .idle
  · rw [sequencerPart_idle hp] at hv
    cases hv
    rfl
  · obtain ⟨hregs, -, -⟩ := sequencerPart_frame (hostPart_busy_withHostSide hp hu).1 hv
    simp only [hostRegisters, Prod.mk.injEq] at hregs
    obtain ⟨-, -, -, hcrc, -⟩ := hregs
    exact hcrc

/-- Settles O51: a change of CRC comes from the host's part, which is a CRC command's or a register write. -/
theorem crcRegisterWriters : Obligations.CrcRegisterWriters := by
  intro s t hst hne
  rcases step_cases s with ⟨hr, -⟩ | ⟨-, -, e⟩ | ⟨-, -, u, v, hu, hv, e⟩
  · exact .inl hr
  · simp [e] at hst
  rw [e] at hst
  cases hst
  have hucrc : u.crc ≠ s.crc := sequencerPart_crc hu hv ▸ hne
  refine .inr ?_
  by_cases hw : s.commandWrite = true
  · obtain ⟨hen, hwe, hreg⟩ := s.commandWrite_iff.mp hw
    rw [hostPart_of_commandWrite hw] at hu
    obtain ⟨-, hctx, -⟩ := encode_decodeCommand s.par s.now.host.wdata
    obtain ⟨hp, g, hg⟩ := crcCommand_of_exec_crc_ne (hctx ▸ .head _) hu hucrc
    refine ⟨hen, hwe, .inr ⟨hreg, hp, g, ?_⟩⟩
    rw [State.commandBytes, decode_wordBytes]
    exact hg.imp (congrArg _) (congrArg _)
  · rw [hostPart_of_not_commandWrite (Bool.eq_false_iff.mpr hw)] at hu
    cases hu
    obtain ⟨hen, hwe, hreg⟩ := crcWrite_of_hostCycle_crc_ne hucrc
    exact ⟨hen, hwe, .inl hreg⟩

end Sys2Proof.Machine

/-! ## The frame codec: requests -/

namespace Sys2Proof.Machine

open Sys2Proof.Claims

/-- An instruction whose last two fields are the CRC of the bytes before them, low byte first (30_encoding.md R96). -/
def withCrcOf (body : List Byte) (mk : Byte → Byte → Instr) : Instr := mk (loByte (crc16 body)) (hiByte (crc16 body))

/-- The request instruction of a command and its operands, with the CRC bytes its row asks for (41_frame_codec.md R160,
R161). -/
def requestInstr (p : Params) (op : TransOp) (addr : Byte) (value : Half) : Instr :=
  match op with
  | .readTemp =>
    withCrcOf [addr, 0x03#8, hiByte p.regTemp, loByte p.regTemp, hiByte p.cntTemp, loByte p.cntTemp]
      (.reqReadTemp addr p.regTemp p.cntTemp)
  | .readEmis =>
    withCrcOf [addr, 0x04#8, hiByte p.regEmis, loByte p.regEmis, hiByte p.cntEmis, loByte p.cntEmis]
      (.reqReadEmis addr p.regEmis p.cntEmis)
  | .writeId => withCrcOf [addr, 0x06#8, 0x03#8, 0xE8#8, 0x00#8, loByte value] (.reqWriteId addr (loByte value))
  | .writeEmis => withCrcOf [addr, 0x06#8, 0x03#8, 0x20#8, 0x00#8, loByte value] (.reqWriteEmis addr (loByte value))
  | .co2Query => .reqCo2Query p.co2QueryFrame
  | .co2Status => .reqCo2Status p.co2StatusFrame
  | .asciiRead => .reqAsciiRead

/-- `enc_crc` byte by byte (41_frame_codec.md R161). -/
theorem encCrc_eq (a fn : Byte) (reg val : Half) :
    encCrc a fn reg val = withCrc [a, fn, hiByte reg, loByte reg, hiByte val, loByte val] := rfl

/-- A write's frame byte by byte: its value field is one byte under a zero high byte (30_encoding.md R97). -/
theorem encCrc_writeField (a fn : Byte) (reg value : Half) :
    encCrc a fn reg (writeField value) = withCrc [a, fn, hiByte reg, loByte reg, 0x00#8, loByte value] := by
  rw [encCrc_eq, writeField, hiByte_be16, loByte_be16]

/-- The frame the encoder builds is the encoding of the request instruction. -/
theorem requestFrame_eq_encode (p : Params) (op : TransOp) (addr : Byte) (value : Half) :
    requestFrame p op addr value = encode p (requestInstr p op addr value) := by
  cases op with
  | readTemp => rfl
  | readEmis => rfl
  | writeId => exact encCrc_writeField ..
  | writeEmis => exact encCrc_writeField ..
  | co2Query => rfl
  | co2Status => rfl
  | asciiRead => rfl

/-- The request instruction is one of the seven REQ_ rows and stands as the request of its command. -/
theorem requestInstr_isRequest (p : Params) (op : TransOp) (addr : Byte) (value : Half) :
    isRequest (requestInstr p op addr value) = true
      ∧ .request op ∈ (requestInstr p op addr value).contexts := by
  cases op <;> exact ⟨rfl, .head _⟩

@[simp] theorem crcFields_self (body : List Byte) :
    crcFields body (loByte (crc16 body)) (hiByte (crc16 body)) = true := by simp [crcFields]

/-- The low byte of a value of one byte is the value. -/
theorem loByte_toNat_of_lt {value : Half} (h : value.toNat < 256) : (loByte value).toNat = value.toNat := by
  rw [loByte_eq_setWidth, BitVec.toNat_setWidth, Nat.mod_eq_of_lt h]

theorem rangeFails_writeId_iff {value : Half} : rangeFails .writeId value = true ↔ 0x00FF < value.toNat :=
  decide_eq_true_iff

theorem rangeFails_writeEmis_iff {value : Half} :
    rangeFails .writeEmis value = true ↔ value.toNat < 1 ∨ 99 < value.toNat := by simp [rangeFails]

/-- Of the fields only an emissivity has a range of its own, and it is the range check's. -/
theorem requestInstr_wellFormed {op : TransOp} {value : Half} (h : rangeFails op value = false) (p : Params)
    (addr : Byte) : (requestInstr p op addr value).wellFormed p = true := by
  cases op with
  | writeEmis =>
    rw [← Bool.not_eq_true, rangeFails_writeEmis_iff] at h
    have hlo : (loByte value).toNat = value.toNat := loByte_toNat_of_lt (by omega)
    simp only [requestInstr, withCrcOf, Instr.wellFormed, crcFields_self, hlo, Bool.and_true,
      Bool.and_eq_true, decide_eq_true_eq]
    omega
  | _ => simp [requestInstr, withCrcOf, Instr.wellFormed]

/-- Settles O8: the frame is the encoding of a well-formed request instruction, which is read back. -/
theorem requestFramesAreWellFormed : Obligations.RequestFramesAreWellFormed := by
  intro p op addr value h
  obtain ⟨hreq, hctx⟩ := requestInstr_isRequest p op addr value
  refine ⟨_, ?_, hreq, requestInstr_wellFormed h p addr⟩
  rw [requestFrame_eq_encode]
  exact decodeRequest_encode p hctx

/-- Settles O9: the read and literal frames by the encoder's definition, the writes by their value field. -/
theorem requestFrameBytes : Obligations.RequestFrameBytes := by
  intro p addr value
  exact ⟨rfl, rfl, encCrc_writeField .., encCrc_writeField .., rfl, rfl, rfl, rfl⟩

/-! ### Delays -/

/-- A delay in cycles is the least count that is long enough (00_scope.md R8, 42_transceiver.md R224). -/
theorem isDelay_delayCycles (p : Params) (ms : Nat) : isDelay p ms (p.delayCycles ms) := by
  unfold isDelay Params.delayCycles
  omega

/-- The longest count bounds every delay of every variant. -/
theorem delays_le_maxCount (p : Params) (v : Variant) :
    p.nSettle v ≤ p.maxCount ∧ p.nGap v ≤ p.maxCount ∧ p.nPost v ≤ p.maxCount := by
  cases v <;> simp only [Params.maxCount, List.foldl, le_max_iff, le_refl, true_or, or_true, and_self]

theorem rxTimeout_le_maxCount (p : Params) : p.rxTimeout ≤ p.maxCount := by simp [Params.maxCount]

/-- The counter's width holds every count up to the longest one (00_scope.md R8). -/
theorem lt_two_pow_cntW {p : Params} {n : Nat} (h : n ≤ p.maxCount) : n < 2 ^ p.cntW :=
  h.trans_lt Nat.lt_log2_self

theorem config_params_wf : Config.params.wf = true := by simp [Params.wf, Config.params]

/-- Settles O10: the tables by evaluation, each delay by the formula of R8, the counter's width by the longest count. -/
theorem lengthsVariantsAndDelays : Obligations.LengthsVariantsAndDelays := by
  refine ⟨by decide, by decide, fun p => ?_, rfl, rfl, rfl, rfl, rfl, config_params_wf⟩
  have delay (ms : Nat) : isDelay p ms (p.delayCycles ms) := isDelay_delayCycles p ms
  refine ⟨delay _, delay _, delay _, delay _, delay _, delay _, delay _, delay _, delay _,
    lt_two_pow_cntW (rxTimeout_le_maxCount p), fun v => ?_⟩
  obtain ⟨hsettle, hgap, hpost⟩ := delays_le_maxCount p v
  exact ⟨lt_two_pow_cntW hsettle, lt_two_pow_cntW hgap, lt_two_pow_cntW hpost⟩

/-! ### The range check -/

theorem exec_writeId (g : BitVec 28) (s : State) :
    exec (.writeId g) s = .next (s.accept 0x5#4 fun t => t.transact .writeId) := rfl

theorem exec_writeEmis (g : BitVec 28) (s : State) :
    exec (.writeEmis g) s = .next (s.accept 0x6#4 fun t => t.transact .writeEmis) := rfl

/-- A value out of range ends the command at its acceptance (41_frame_codec.md R176). -/
theorem accept_transact_of_rangeFails {s : State} {op : TransOp} (hp : s.phase = .idle)
    (h : rangeFails op s.regValue = true) (o : BitVec 4) :
    s.accept o (fun t => t.transact op) = finishedAtOnce s o .outOfRange 0 := by
  rw [accept_idle hp, ← finish_eq_finishedAtOnce hp]
  exact if_pos h

/-- A value in range does not end the command with OUT_OF_RANGE: it ends with BAD_CONFIG or starts. -/
theorem accept_transact_code_ne {s : State} {op : TransOp} (hp : s.phase = .idle)
    (h : ¬ rangeFails op s.regValue = true) (o : BitVec 4) :
    (s.accept o fun t => t.transact op).code ≠ .outOfRange := by
  rw [accept_idle hp]
  rcases transact_cases (s.acceptCommon o) op with ⟨hfail, -⟩ | ⟨-, -, e⟩ | ⟨-, -, e⟩
  · exact absurd hfail h
  · simp [e, State.raise]
  · simp [e]

/-- Settles O15: the range check decides, for both writes alike. -/
theorem writeOutOfRangeRefused : Obligations.WriteOutOfRangeRefused := by
  intro g s hp
  refine ⟨fun h => ?_, fun h => ?_, fun h => ⟨_, exec_writeId g s, ?_⟩, fun hlo hhi => ⟨_, exec_writeEmis g s, ?_⟩⟩
  · rw [exec_writeId]
    exact congrArg _ (accept_transact_of_rangeFails hp (rangeFails_writeId_iff.mpr h) _)
  · rw [exec_writeEmis]
    exact congrArg _ (accept_transact_of_rangeFails hp (rangeFails_writeEmis_iff.mpr h) _)
  · exact accept_transact_code_ne hp (mt rangeFails_writeId_iff.mp (by omega)) _
  · exact accept_transact_code_ne hp (mt rangeFails_writeEmis_iff.mp (by omega)) _

end Sys2Proof.Machine

/-! ## The frame codec: responses

In EVAL without a recorded cause the verdict on the response alone decides: it is published, or the attempt fails
(43_retry.md R259). -/

namespace Sys2Proof.Machine

open Sys2Proof.Claims

/-! ### Verdicts -/

theorem conclude_accept (s : State) (code : Code) (d0 d1 : Word) :
    s.conclude (.accept code d0 d1) = published s code d0 d1 := rfl

theorem conclude_reject (s : State) (c : Code) : s.conclude (.reject c) = failed s c := by
  change s.failAttempt c = failed s c
  by_cases h : s.attempt.toNat < s.maxatt.toNat
  · rw [failAttempt_retry h, failed, if_pos h]
    rfl
  · rw [failAttempt_exhaust h, failed, if_neg h]
    rfl

/-- A response frame in EVAL without a recorded cause is judged, and the verdict is carried out. -/
theorem judgeFrame_eq_conclude {s : State} (hp : s.phase = .eval) (hc : s.cause = .ok) (op : TransOp)
    (bs : List Byte) :
    s.judgeFrame op bs = (withResponse s bs).conclude (judge s.par op bs (s.txByte 5)) := by
  rw [judgeFrame_of_eval hp]
  exact evalCycle_conclude (s := s.loadResponse bs) hc _

theorem judgeFrame_accept {s : State} (hp : s.phase = .eval) (hc : s.cause = .ok) {op : TransOp} {bs : List Byte}
    {code : Code} {d0 d1 : Word} (h : judge s.par op bs (s.txByte 5) = .accept code d0 d1) :
    s.judgeFrame op bs = published (withResponse s bs) code d0 d1 := by
  rw [judgeFrame_eq_conclude hp hc, h, conclude_accept]

theorem judgeFrame_reject {s : State} (hp : s.phase = .eval) (hc : s.cause = .ok) {op : TransOp} {bs : List Byte}
    {c : Code} (h : judge s.par op bs (s.txByte 5) = .reject c) :
    s.judgeFrame op bs = failed (withResponse s bs) c := by
  rw [judgeFrame_eq_conclude hp hc, h, conclude_reject]

/-- The responses of the variant V_CRC are validated by their CRC (41_frame_codec.md R167). -/
theorem validate_of_variant_crc {op : TransOp} (hop : variantOf op = .crc) (p : Params) (rx : List Byte) :
    validate p op rx = if crcOk rx then .ok else .checksumMismatch := by
  cases op <;> cases hop <;> rfl

/-- A response with matching CRC bytes is decoded. -/
theorem judge_of_crcMatches {op : TransOp} (hop : variantOf op = .crc) {body : List Byte} {lo hi : Byte}
    (h : crcMatches body lo hi) (p : Params) (sent : Byte) :
    judge p op (body ++ [lo, hi]) sent = decodeFields p op (body ++ [lo, hi]) sent :=
  judge_of_valid (by rw [validate_of_variant_crc hop, if_pos ((crcOk_append_pair body lo hi).mpr h)])

/-- A response with other CRC bytes is rejected (41_frame_codec.md R173). -/
theorem judge_of_not_crcMatches {op : TransOp} (hop : variantOf op = .crc) {body : List Byte} {lo hi : Byte}
    (h : ¬ crcMatches body lo hi) (p : Params) (sent : Byte) :
    judge p op (body ++ [lo, hi]) sent = .reject .checksumMismatch := by
  rw [judge, validate_of_variant_crc hop, if_neg (mt (crcOk_append_pair body lo hi).mp h)]

/-! ### The five response rows -/

theorem exec_rspReadTemp (x0 x1 x2 : Byte) (probe ambient : Half) (lo hi : Byte) (s : State) :
    exec (.rspReadTemp x0 x1 x2 probe ambient lo hi) s
      = .next (s.judgeFrame .readTemp ([x0, x1, x2, hiByte probe, loByte probe, hiByte ambient, loByte ambient]
          ++ [lo, hi])) := rfl

theorem exec_rspReadEmis (x0 x1 x2 x3 e lo hi : Byte) (s : State) :
    exec (.rspReadEmis x0 x1 x2 x3 e lo hi) s
      = .next (s.judgeFrame .readEmis ([x0, x1, x2, x3, e] ++ [lo, hi])) := rfl

theorem exec_rspWrite (x0 x1 x2 x3 x4 v lo hi : Byte) (s : State) :
    exec (.rspWrite x0 x1 x2 x3 x4 v lo hi) s
      = .next (s.judgeFrame s.writeOp ([x0, x1, x2, x3, x4, v] ++ [lo, hi])) := rfl

theorem exec_rspCo2 (x0 x1 x2 : Byte) (co2 : Half) (x5 x6 x7 : Byte) (s : State) :
    exec (.rspCo2 x0 x1 x2 co2 x5 x6 x7) s
      = .next (s.judgeFrame s.co2Op [x0, x1, x2, hiByte co2, loByte co2, x5, x6, x7]) := rfl

theorem exec_rspAscii (line : List Byte) (s : State) :
    exec (.rspAscii line) s = .next (s.judgeFrame .asciiRead line) := rfl

/-- A write response is judged as one of the two writes'. -/
theorem writeOp_cases (s : State) : s.writeOp = .writeId ∨ s.writeOp = .writeEmis := by
  unfold State.writeOp
  split
  · exact .inr rfl
  · exact .inl rfl

theorem variantOf_writeOp (s : State) : variantOf s.writeOp = .crc := by
  rcases writeOp_cases s with h | h <;> rw [h] <;> rfl

/-- Both writes compare byte 5 with the byte sent (41_frame_codec.md R171). -/
theorem decodeFields_writeOp (s : State) (p : Params) (rx : List Byte) (sent : Byte) :
    decodeFields p s.writeOp rx sent
      = .accept (if rxAt rx 5 = sent then .ok else .valueRejected) (zext32 (rxAt rx 5)) 0 := by
  rcases writeOp_cases s with h | h <;> rw [h] <;> rfl

/-- Settles O22: the matching CRC leads to the two fields, put together from their bytes. -/
theorem readTempResponsePublished : Obligations.ReadTempResponsePublished := by
  intro x0 x1 x2 probe ambient lo hi s hp hc hcrc
  rw [exec_rspReadTemp]
  refine congrArg _ (judgeFrame_accept hp hc ?_)
  rw [judge_of_crcMatches rfl hcrc]
  simp [decodeFields, rxAt, sext32]

/-- Settles O23: the matching CRC leads to byte 4. -/
theorem readEmisResponsePublished : Obligations.ReadEmisResponsePublished := by
  intro x0 x1 x2 x3 e lo hi s hp hc hcrc
  rw [exec_rspReadEmis]
  refine congrArg _ (judgeFrame_accept hp hc ?_)
  rw [judge_of_crcMatches rfl hcrc]
  rfl

/-- Settles O24: the matching CRC leads to the comparison with byte 5 of the request, which TXLEN covers. -/
theorem writeResponseJudgedByEcho : Obligations.WriteResponseJudgedByEcho := by
  intro x0 x1 x2 x3 x4 v lo hi s hp hc hlen hcrc
  rw [exec_rspWrite]
  refine congrArg _ (judgeFrame_accept hp hc ?_)
  rw [judge_of_crcMatches (variantOf_writeOp s) hcrc, decodeFields_writeOp, State.txByte_of_lt hlen]
  rfl

/-- Settles O25: nothing is checked, and the command decides what is decoded. -/
theorem co2ResponsePublished : Obligations.Co2ResponsePublished := by
  intro x0 x1 x2 co2 x5 x6 x7 s hp hc f
  refine ⟨fun hop => ?_, fun hop => ?_⟩
  · have hquery : s.co2Op = .co2Query := by rw [State.co2Op, hop]; rfl
    rw [exec_rspCo2, hquery]
    refine congrArg _ (judgeFrame_accept hp hc ((judge_of_valid rfl).trans ?_))
    simp [decodeFields, rxAt, zext32]
  · have hstatus : s.co2Op = .co2Status := by rw [State.co2Op, hop]; rfl
    rw [exec_rspCo2, hstatus]
    exact congrArg _ (judgeFrame_accept hp hc (judge_of_valid rfl))

/-- Settles O28: a CRC that does not match fails the attempt, whatever the fields hold. -/
theorem corruptResponseFailsAttempt : Obligations.CorruptResponseFailsAttempt := by
  intro s hp hc
  refine ⟨fun x0 x1 x2 probe ambient lo hi h => ?_, fun x0 x1 x2 x3 e lo hi h => ?_,
    fun x0 x1 x2 x3 x4 v lo hi h => ?_⟩
  · rw [exec_rspReadTemp]
    exact congrArg _ (judgeFrame_reject hp hc (judge_of_not_crcMatches rfl h ..))
  · rw [exec_rspReadEmis]
    exact congrArg _ (judgeFrame_reject hp hc (judge_of_not_crcMatches rfl h ..))
  · rw [exec_rspWrite]
    exact congrArg _ (judgeFrame_reject hp hc (judge_of_not_crcMatches (variantOf_writeOp s) h ..))

/-! ### Lines -/

theorem isHex_iff {ch : Byte} : isHex ch = true ↔ (0x30 ≤ ch.toNat ∧ ch.toNat ≤ 0x39)
    ∨ (0x41 ≤ ch.toNat ∧ ch.toNat ≤ 0x46) ∨ (0x61 ≤ ch.toNat ∧ ch.toNat ≤ 0x66) := by
  simp [isHex, or_assoc]

/-- Settles O27: each character of the three ranges by evaluation, and no others by the ranges of `ishex`. -/
theorem hexDigitValues : Obligations.HexDigitValues := ⟨by decide, by decide, fun _ => isHex_iff.mp⟩

theorem hexAt_iff {line : List Byte} {o : Nat} :
    hexAt line o ↔ (decide (o + 4 ≤ line.length) && isHex (rxAt line o) && isHex (rxAt line (o + 1))
      && isHex (rxAt line (o + 2)) && isHex (rxAt line (o + 3))) = true := by
  simp only [hexAt, rxAt, Bool.and_eq_true, decide_eq_true_eq, and_assoc]
  refine and_congr_right fun _ => ⟨fun h => ⟨h 0 (by decide), h 1 (by decide), h 2 (by decide), h 3 (by decide)⟩, ?_⟩
  rintro ⟨h0, h1, h2, h3⟩ k hk
  interval_cases k
  · exact h0
  · exact h1
  · exact h2
  · exact h3

/-- A line with four hexadecimal characters at the offset gives their value (41_frame_codec.md R187, R189). -/
theorem judge_of_hexAt {p : Params} {line : List Byte} (h : hexAt line p.asciiValOffset) (sent : Byte) :
    judge p .asciiRead line sent = .accept .ok (lineValue line p.asciiValOffset) 0 :=
  judge_of_valid (if_pos (hexAt_iff.mp h))

/-- Any other line is rejected (41_frame_codec.md R187). -/
theorem judge_of_not_hexAt {p : Params} {line : List Byte} (h : ¬ hexAt line p.asciiValOffset) (sent : Byte) :
    judge p .asciiRead line sent = .reject .formatError := by
  have hformat : validate p .asciiRead line = .formatError := if_neg (mt hexAt_iff.mpr h)
  rw [judge, hformat]

theorem responseBytes_of_sequencerView_eq {s t : State} (h : sequencerView t = sequencerView s) :
    t.responseBytes = s.responseBytes := by
  simp only [sequencerView, Prod.mk.injEq] at h
  simp [State.responseBytes, h]

/-- In EVAL the sequencer's part judges what RXBUF holds, whether or not it is a frame of the table. -/
theorem sequencerPart_eval {s u : State} (hp : s.phase = .eval) (hrx : s.rxlen.toNat ≤ s.rxbuf.length)
    (hu : s.hostPart = .next u) : s.sequencerPart u = .next u.evalBuffer := by
  obtain ⟨hview, hpar⟩ := hostPart_busy_view (by simp [hp]) hu
  have hrsp := responseBytes_of_sequencerView_eq hview
  simp only [sequencerView, Prod.mk.injEq] at hview
  have heval : u.phase = .eval := by simp [hview, hp]
  rw [← sequencerCycle_of_eval heval]
  obtain ⟨v, hv⟩ := sequencerPart_next s u
  rw [hv]
  rcases sequencerPart_cases (by simp [hview]) hpar hv with
    ⟨hidle, -⟩ | ⟨-, rfl⟩ | ⟨op, i, -, ht, -, -⟩ | ⟨op, i, hop, -, -, hd, rfl⟩
  · simp [hp] at hidle
  · rfl
  · simp [hp, Phase.transmitting] at ht
  · rw [encode_of_decodeResponse hd, ← hrsp, judgeFrame_responseBytes (by simpa [hview] using hrx) heval
      (by simpa [hview] using hop)]

/-- The whole step in EVAL without a recorded cause: the verdict on what RXBUF holds is carried out on the state the
host's part left. -/
theorem step_of_eval {s u : State} {op : TransOp} (hp : s.phase = .eval) (hc : s.cause = .ok)
    (hop : TransOp.ofCode s.op = some op) (hr : s.now.rst = false) (hw : s.now.host.whole = true)
    (hrx : s.rxlen.toNat ≤ s.rxbuf.length) (hu : s.hostPart = .next u) :
    step s = .next (s.closeCycle (u.conclude (judge s.par op s.responseBytes (u.txByte 5)))) := by
  obtain ⟨hview, hpar⟩ := hostPart_busy_view (by simp [hp]) hu
  have hrsp := responseBytes_of_sequencerView_eq hview
  simp only [sequencerView, Prod.mk.injEq] at hview
  rw [step_of_hostPart hr hw hu (sequencerPart_eval hp hrx hu), evalBuffer_of_some (by simpa [hview] using hop),
    evalCycle_conclude (by simp [hview, hc]), hpar, hrsp]

/-- Settles O26: the verdict on a line with four hexadecimal characters, carried out by `exec` and by the step. -/
theorem asciiResponsePublished : Obligations.AsciiResponsePublished := by
  refine ⟨fun line s hp hc h => ?_, fun s u hp hc hop hr hw hrx hu h => ?_⟩
  · rw [exec_rspAscii, judgeFrame_accept hp hc (judge_of_hexAt h _)]
  · have hascii : TransOp.ofCode s.op = some .asciiRead := by rw [hop]; rfl
    rw [step_of_eval hp hc hascii hr hw hrx hu, judge_of_hexAt h, conclude_accept]

/-- Settles O29: the verdict on any other line, carried out by `exec` and by the step. -/
theorem malformedLineFailsAttempt : Obligations.MalformedLineFailsAttempt := by
  refine ⟨fun line s hp hc h => ?_, fun s u hp hc hop hr hw hrx hu h => ?_⟩
  · rw [exec_rspAscii, judgeFrame_reject hp hc (judge_of_not_hexAt h _)]
  · have hascii : TransOp.ofCode s.op = some .asciiRead := by rw [hop]; rfl
    rw [step_of_eval hp hc hascii hr hw hrx hu, judge_of_not_hexAt h, conclude_reject]

end Sys2Proof.Machine

/-! ## The phase table, row by row

42_transceiver.md R206 as equations of `State.transmitCycle`, and what the sequencer's part of a cycle is in terms of
its rows, with no bound on the buffers. -/

namespace Sys2Proof.Machine

open Sys2Proof.Claims

/-! ### The rows of the transmit part -/

theorem transmitCycle_settle {s : State} (hp : s.phase = .settle) (i : CycleIn) :
    s.transmitCycle i = s.countdown { s with phase := .txFirst, txidx := 0 } := by rw [State.transmitCycle, hp]

theorem transmitCycle_gap {s : State} (hp : s.phase = .gap) (i : CycleIn) :
    s.transmitCycle i = s.countdown { s with phase := .txRest } := by rw [State.transmitCycle, hp]

theorem transmitCycle_postwrite {s : State} (hp : s.phase = .postwrite) (i : CycleIn) :
    s.transmitCycle i = s.countdown s.enterReceive := by rw [State.transmitCycle, hp]

theorem countdown_running {s : State} (h : 1 < s.cnt) (leave : State) :
    s.countdown leave = { s with cnt := s.cnt - 1 } := if_pos h

theorem countdown_over {s : State} (h : s.cnt ≤ 1) (leave : State) : s.countdown leave = leave :=
  if_neg (by omega)

/-- The phases of the transmit part that count (42_transceiver.md R224). -/
theorem transmitCycle_counting {s : State} (hp : s.phase = .settle ∨ s.phase = .gap ∨ s.phase = .postwrite)
    (hc : 1 < s.cnt) (i : CycleIn) : s.transmitCycle i = { s with cnt := s.cnt - 1 } := by
  rcases hp with hp | hp | hp
  · rw [transmitCycle_settle hp, countdown_running hc]
  · rw [transmitCycle_gap hp, countdown_running hc]
  · rw [transmitCycle_postwrite hp, countdown_running hc]

theorem offering_iff {p : Phase} :
    offering p = true ↔ p = .txFirst ∨ p = .flush1 ∨ p = .txRest ∨ p = .flush2 := by
  simp [offering, or_assoc]

/-- A transport error ends the exchange in every phase that listens to the transport (42_transceiver.md R218). -/
theorem transmitCycle_txErr {s : State} (hp : offering s.phase = true) {i : CycleIn} (h : i.txErr = true) :
    s.transmitCycle i = s.abort .transportError := by
  rcases offering_iff.mp hp with hp | hp | hp | hp <;> rw [State.transmitCycle, hp] <;> exact if_pos h

theorem transmitCycle_txFirst {s : State} (hp : s.phase = .txFirst) {i : CycleIn} (he : i.txErr = false) :
    s.transmitCycle i = if i.txReady then { s with phase := .flush1, txidx := 1 } else s := by
  simp only [State.transmitCycle, hp, he, Bool.false_eq_true, if_false]

theorem transmitCycle_flush1 {s : State} (hp : s.phase = .flush1) {i : CycleIn} (he : i.txErr = false) :
    s.transmitCycle i = if i.txIdle then { s with phase := .gap, cnt := s.par.nGap s.variant } else s := by
  simp only [State.transmitCycle, hp, he, Bool.false_eq_true, if_false]

theorem transmitCycle_txRest {s : State} (hp : s.phase = .txRest) {i : CycleIn} (he : i.txErr = false) :
    s.transmitCycle i
      = if i.txReady then
          if s.txidx.setWidth 5 = s.txlen - 1 then { s with phase := .flush2 } else { s with txidx := s.txidx + 1 }
        else s := by
  simp only [State.transmitCycle, hp, he, Bool.false_eq_true, if_false]

theorem transmitCycle_flush2 {s : State} (hp : s.phase = .flush2) {i : CycleIn} (he : i.txErr = false) :
    s.transmitCycle i = if i.txIdle then { s with phase := .postwrite, cnt := s.par.nPost s.variant } else s := by
  simp only [State.transmitCycle, hp, he, Bool.false_eq_true, if_false]

/-- The index is that of the frame's last byte (42_transceiver.md R211). -/
theorem atLastByte_iff {k : BitVec 4} {n : BitVec 5} (h : 1 ≤ n.toNat) :
    k.setWidth 5 = n - 1 ↔ k.toNat + 1 = n.toNat := by
  constructor
  · intro e; bv_omega
  · intro e; bv_omega

/-- A byte before the frame's last one moves the index on. -/
theorem transmitCycle_nextByte {s : State} (hp : s.phase = .txRest) {i : CycleIn} (he : i.txErr = false)
    (hr : i.txReady = true) (hk : s.txidx.toNat + 1 < s.txlen.toNat) :
    s.transmitCycle i = { s with txidx := s.txidx + 1 } := by
  rw [transmitCycle_txRest hp he, if_pos hr, if_neg]
  rw [atLastByte_iff (by omega)]
  omega

/-- The frame's last byte ends the phase. -/
theorem transmitCycle_lastByte {s : State} (hp : s.phase = .txRest) {i : CycleIn} (he : i.txErr = false)
    (hr : i.txReady = true) (hk : s.txidx.toNat + 1 = s.txlen.toNat) :
    s.transmitCycle i = { s with phase := .flush2 } := by
  rw [transmitCycle_txRest hp he, if_pos hr, if_pos ((atLastByte_iff (by omega)).mpr hk)]

/-! ### The sequencer's part as a row of the table -/

/-- What the sequencer's part of a cycle does to the state `u` the host's part of a busy cycle left. The bytes that
TXBUF or RXBUF holds may have been put back into their buffer first (log entry 6). -/
inductive Sequenced (u : State) : State → Prop where
  | transmit {w : State} (hp : u.phase.transmitting = true) (hw : w = u ∨ w = u.loadRequest u.requestBytes) :
      Sequenced u (w.transmitCycle u.now)
  | receive (hp : u.phase = .receive) : Sequenced u (u.receiveCycle u.now)
  | judge {w : State} (op : TransOp) (v : Verdict) (hp : u.phase = .eval) (hop : TransOp.ofCode u.op = some op)
      (hw : w = u ∨ w = u.loadResponse u.responseBytes) : Sequenced u (w.evalCycle v)
  | noCommand (hp : u.phase = .eval) (hop : TransOp.ofCode u.op = none) : Sequenced u u

/-- A running command's cycle of the phase table is a row of it. -/
theorem sequenced_sequencerCycle {u : State} (hp : u.phase ≠ .idle) : Sequenced u u.sequencerCycle := by
  by_cases ht : u.phase.transmitting = true
  · rw [sequencerCycle_of_transmitting ht]
    exact .transmit ht (.inl rfl)
  cases hph : u.phase
  case idle => exact absurd hph hp
  case receive =>
    rw [sequencerCycle_of_receive hph]
    exact .receive hph
  case eval =>
    rw [sequencerCycle_of_eval hph]
    cases hop : TransOp.ofCode u.op with
    | none => rw [evalBuffer_of_none hop]; exact .noCommand hph hop
    | some op => rw [evalBuffer_of_some hop]; exact .judge op _ hph hop (.inl rfl)
  all_goals simp [hph, Phase.transmitting] at ht

/-- Whatever is fetched, the sequencer's part of a busy cycle is a row of the phase table. -/
theorem sequenced_of_sequencerPart {s u v : State} (hp : s.phase ≠ .idle) (hu : s.hostPart = .next u)
    (hv : s.sequencerPart u = .next v) : Sequenced u v := by
  obtain ⟨hview, hpar⟩ := hostPart_busy_view hp hu
  have hrsp := responseBytes_of_sequencerView_eq hview
  simp only [sequencerView, Prod.mk.injEq] at hview
  have hreq : u.requestBytes = s.requestBytes := by simp [State.requestBytes, hview]
  have hphase : u.phase = s.phase := by simp [hview]
  have hop : u.op = s.op := by simp [hview]
  rcases sequencerPart_cases hop hpar hv with
    ⟨hidle, -⟩ | ⟨-, rfl⟩ | ⟨op, i, -, ht, hd, rfl⟩ | ⟨op, i, hcode, he, -, hd, rfl⟩
  · exact absurd hidle hp
  · exact sequenced_sequencerCycle (hphase ▸ hp)
  · rw [encode_of_decodeRequest hd, ← hreq, sendFrame_of_transmitting (hphase ▸ ht)]
    exact .transmit (hphase ▸ ht) (.inr rfl)
  · rw [encode_of_decodeResponse hd, ← hrsp, judgeFrame_of_eval (hphase.trans he)]
    exact .judge op _ (hphase.trans he) (hop ▸ hcode) (.inr rfl)

/-- A step while a command runs and without reset: the host's part, which leaves the sequencer's elements and the
inputs, and then a row of the phase table. -/
theorem step_busy_cases {s t : State} (hp : s.phase ≠ .idle) (hr : s.now.rst = false) (h : step s = .next t) :
    ∃ u v, u = s.withHostSide u ∧ u.now = s.now ∧ Sequenced u v ∧ t = s.closeCycle v := by
  rcases step_cases s with ⟨hr', -⟩ | ⟨-, -, e⟩ | ⟨-, -, u, v, hu, hv, e⟩
  · simp [hr] at hr'
  · simp [e] at h
  rw [e] at h
  cases h
  obtain ⟨hside, hnow⟩ := hostPart_busy_withHostSide hp hu
  exact ⟨u, v, hside, hnow, sequenced_of_sequencerPart hp hu hv, rfl⟩

/-- An idle cycle without reset is the host's part alone. -/
theorem step_idle_cases {s t : State} (hp : s.phase = .idle) (hr : s.now.rst = false) (h : step s = .next t) :
    ∃ u, s.hostPart = .next u ∧ t = s.closeCycle u := by
  rcases step_cases s with ⟨hr', -⟩ | ⟨-, -, e⟩ | ⟨-, -, u, v, hu, hv, e⟩
  · simp [hr] at hr'
  · simp [e] at h
  rw [e] at h
  cases h
  rw [sequencerPart_idle hp] at hv
  cases hv
  exact ⟨u, hu, rfl⟩

/-- The host's part changes the host's side alone, or it accepts a command. -/
theorem hostPart_side_or_accepted {s u : State} (h : s.hostPart = .next u) :
    u = s.withHostSide u ∨ (s.phase = .idle ∧ ∃ o, Accepted (s.acceptCommon o) u) := by
  rcases hostPart_cases h with rfl | rfl | ⟨-, rfl⟩ | ⟨hp, -, ha⟩
  · exact .inl rfl
  · exact .inl (s.writeReg_eq_withHostSide _ _)
  · exact .inl rfl
  · exact .inr ⟨hp, ha⟩

/-- An invariant of the sequencer's elements is kept by every step if the reset edge, the acceptance of a command and
every row of the phase table keep it. -/
theorem step_keeps {I : State → Prop} {s t : State} (h : I s) (hst : step s = .next t)
    (hside : ∀ a b, I a → I (a.withHostSide b)) (hreset : I s.resetEdge)
    (haccept : s.phase = .idle → ∀ o u, Accepted (s.acceptCommon o) u → I u)
    (hrow : ∀ u v, I u → Sequenced u v → I v) : I t := by
  have close (v : State) (hv : I v) : I (s.closeCycle v) := hside v (s.closeCycle v) hv
  have host (u : State) (hu : s.hostPart = .next u) : I u := by
    rcases hostPart_side_or_accepted hu with e | ⟨hp, o, ha⟩
    · rw [e]
      exact hside s u h
    · exact haccept hp o u ha
  rcases step_cases s with ⟨-, e⟩ | ⟨-, -, e⟩ | ⟨-, -, u, v, hu, hv, e⟩ <;> rw [e] at hst <;> cases hst
  · exact close _ hreset
  · by_cases hp : s.phase = .idle
    · rw [sequencerPart_idle hp] at hv
      cases hv
      exact close _ (host _ hu)
    · exact close _ (hrow u v (host u hu) (sequenced_of_sequencerPart hp hu hv))

/-- Settles O33: the frame that is fetched stands in its buffer, so running it is the phase table's cycle. -/
theorem stepFollowsPhaseTable : Obligations.StepFollowsPhaseTable := by
  intro s t hr hw htx hrx ht
  by_cases hp : s.phase = .idle
  · rw [if_pos hp, step_idle hp hr hw ht]
  · rw [if_neg hp, step_of_hostPart hr hw ht (sequencerPart_busy hp htx hrx ht)]

end Sys2Proof.Machine

/-! ## The lines -/

namespace Sys2Proof.Machine

/-- The invariant looks at the lines and at whether a request is under way. -/
theorem State.LinesInv.of_lines_eq {s t : State} (h : s.LinesInv) (hde : t.de = s.de) (hre : t.re = s.re)
    (hp : t.phase.transmitting = s.phase.transmitting) : t.LinesInv where
  opposite := by rw [hde, hre, h.opposite]
  direction := by rw [hde, hp, h.direction]

/-- Transmit mode in the transmit part (42_transceiver.md R203). -/
theorem State.LinesInv.of_transmitMode {t : State} (hde : t.de = true) (hre : t.re = false)
    (hp : t.phase.transmitting = true) : t.LinesInv where
  opposite := by rw [hde, hre]; rfl
  direction := by rw [hde, hp]

/-- Receive mode outside it (42_transceiver.md R203). -/
theorem State.LinesInv.of_receiveMode {t : State} (hde : t.de = false) (hre : t.re = true)
    (hp : t.phase.transmitting = false) : t.LinesInv where
  opposite := by rw [hde, hre]; rfl
  direction := by rw [hde, hp]

/-- The transmit part keeps transmit mode until it leaves for RECEIVE or EVAL (42_transceiver.md R213, R218). -/
theorem State.LinesInv.transmitCycle {s : State} (h : s.LinesInv) (i : CycleIn) : (s.transmitCycle i).LinesInv := by
  rcases transmitCycle_cases s i with
    e | ⟨-, e⟩ | ⟨hp, -, e⟩ | ⟨-, -, e⟩ | ⟨hp, -, -, e⟩ | ⟨hp, -, -, e⟩ | ⟨hp, -, e⟩ | ⟨hp, -, -, -, e⟩
      | ⟨-, -, -, -, e⟩ | ⟨hp, -, -, e⟩ | ⟨-, -, e⟩ <;> rw [e]
  · exact h
  · exact h.of_lines_eq rfl rfl rfl
  · exact h.of_lines_eq rfl rfl (by rw [hp]; rfl)
  · exact .of_receiveMode rfl rfl rfl
  · exact h.of_lines_eq rfl rfl (by rw [hp]; rfl)
  · exact h.of_lines_eq rfl rfl (by rw [hp]; rfl)
  · exact h.of_lines_eq rfl rfl (by rw [hp]; rfl)
  · exact h.of_lines_eq rfl rfl (by rw [hp]; rfl)
  · exact h.of_lines_eq rfl rfl rfl
  · exact h.of_lines_eq rfl rfl (by rw [hp]; rfl)
  · exact .of_receiveMode rfl rfl rfl

/-- RECEIVE stays in receive mode, on its way to EVAL too. -/
theorem State.LinesInv.receiveCycle {s : State} (h : s.LinesInv) (i : CycleIn) (hp : s.phase = .receive) :
    (s.receiveCycle i).LinesInv := by
  have heval : Phase.eval.transmitting = s.phase.transmitting := by rw [hp]; rfl
  rcases receiveCycle_cases s i with ⟨-, e⟩ | ⟨u, hu, e⟩
  · rw [e]
    exact h.of_lines_eq rfl rfl heval
  have hlines : u.de = s.de ∧ u.re = s.re ∧ u.phase = s.phase := by
    rcases hu with ⟨-, rfl⟩ | ⟨-, rfl | rfl⟩ <;> exact ⟨rfl, rfl, rfl⟩
  obtain ⟨hde, hre, hphase⟩ := hlines
  rcases e with ⟨-, e⟩ | ⟨-, e⟩ | ⟨-, e⟩ <;> rw [e]
  · exact h.of_lines_eq hde hre heval
  · exact h.of_lines_eq hde hre heval
  · exact h.of_lines_eq hde hre (congrArg _ hphase)

/-- A command that ends outside the transmit part leaves the lines (60_exceptions.md R325). -/
theorem State.LinesInv.finish {s : State} (h : s.LinesInv) (hp : s.phase.transmitting = false) (code l : Code)
    (a b : Word) : (s.finish code l a b).LinesInv :=
  h.of_lines_eq rfl rfl hp.symm

/-- EVAL goes to IDLE as it is, or to SETTLE in transmit mode (43_retry.md R259). -/
theorem State.LinesInv.evalCycle {s : State} (h : s.LinesInv) (v : Verdict) (hp : s.phase = .eval) :
    (s.evalCycle v).LinesInv := by
  have heval : s.phase.transmitting = false := by rw [hp]; rfl
  have fail (c : Code) : (s.failAttempt c).LinesInv := by
    have hreport : (s.report c s.attempt).LinesInv := h.of_lines_eq rfl rfl rfl
    rcases failAttempt_cases s c with ⟨-, e⟩ | ⟨-, e⟩ <;> rw [e]
    · exact .of_transmitMode rfl rfl rfl
    · exact hreport.finish heval ..
  rcases evalCycle_cases s v with ⟨code, a, b, -, -, e⟩ | ⟨c, -, -, e⟩ | ⟨-, e⟩ <;> rw [e]
  · exact h.finish heval ..
  · exact fail c
  · exact fail s.cause

/-- Every row of the phase table keeps the lines. -/
theorem State.LinesInv.sequenced {u v : State} (h : u.LinesInv) (hv : Sequenced u v) : v.LinesInv := by
  cases hv with
  | transmit hp hw =>
    rcases hw with rfl | rfl
    · exact h.transmitCycle _
    · exact State.LinesInv.transmitCycle (s := u.loadRequest u.requestBytes) (h.of_lines_eq rfl rfl rfl) _
  | receive hp => exact h.receiveCycle _ hp
  | judge op v hp hop hw =>
    rcases hw with rfl | rfl
    · exact h.evalCycle v hp
    · exact State.LinesInv.evalCycle (s := u.loadResponse u.responseBytes) (h.of_lines_eq rfl rfl rfl) v hp
  | noCommand hp hop => exact h

/-- A command that finishes at its acceptance leaves the lines, and a transaction takes transmit mode
(44_commands.md R280). -/
theorem State.LinesInv.accepted {s t : State} (h : s.LinesInv) (hp : s.phase = .idle) {o : BitVec 4}
    (ha : Accepted (s.acceptCommon o) t) : t.LinesInv := by
  have hidle : s.phase.transmitting = false := by rw [hp]; rfl
  have hempty : (s.acceptCommon o).noRequest.LinesInv := h.of_lines_eq rfl rfl rfl
  cases ha with
  | crcInit => exact h.of_lines_eq rfl rfl hidle.symm
  | crcByte => exact h.of_lines_eq rfl rfl hidle.symm
  | refused c hc => exact hempty.finish hidle ..
  | started op hop hr hm => exact .of_transmitMode rfl rfl rfl

/-- Settles O42: reset, the acceptance of a command and every row of the phase table keep the lines. -/
theorem stepKeepsLines : Obligations.StepKeepsLines := by
  intro s t h hst
  exact step_keeps h hst (fun _ _ ha => ha.of_lines_eq rfl rfl rfl) (.of_receiveMode rfl rfl rfl)
    (fun hp _ _ ha => h.accepted hp ha) (fun _ _ hu hv => hu.sequenced hv)

end Sys2Proof.Machine

/-! ## The counter and the transmit index -/

namespace Sys2Proof.Machine

/-- Every delay has at least one cycle (00_scope.md R8). -/
theorem one_le_delays (p : Params) (v : Variant) : 1 ≤ p.nSettle v ∧ 1 ≤ p.nGap v ∧ 1 ≤ p.nPost v :=
  ⟨le_max_left .., le_max_left .., le_max_left ..⟩

/-- In a phase that does not use the transmit index, the sizes and the count make the invariant. -/
theorem State.CounterInv.of_no_index {t : State} (htx : t.txbuf.length = 16) (htxlen : t.txlen.toNat ≤ 16)
    (htimeout : 1 ≤ t.par.rxTimeout) (hlength : t.phase ≠ .idle → 2 ≤ t.txlen.toNat)
    (hpos : t.phase.counting = true → 1 ≤ t.cnt) (hfits : t.cnt ≤ t.par.maxCount)
    (hp : t.phase ∉ [Phase.txFirst, .flush1, .gap, .txRest]) : t.CounterInv where
  tx_size := htx
  txlen_fits := htxlen
  timeout_pos := htimeout
  length_pos := hlength
  count_pos := hpos
  count_fits := hfits
  index_first e := by simp [e] at hp
  index_second e := by rcases e with e | e <;> simp [e] at hp
  index_rest e := by simp [e] at hp

/-- The invariant looks at the request's place, the parameters, the phase, the counter and the index alone. -/
theorem State.CounterInv.withHostSide {s : State} (h : s.CounterInv) (a : State) : (s.withHostSide a).CounterInv :=
  { h with }

/-- The transmit part: every delay is entered with its own count, and the index runs from 0 to TXLEN - 1
(42_transceiver.md R206, R211, R224). -/
theorem State.CounterInv.transmitCycle {s : State} (h : s.CounterInv) (hbusy : s.phase ≠ .idle) (i : CycleIn) :
    (s.transmitCycle i).CounterInv := by
  have hlen := h.length_pos hbusy
  have hfits := h.txlen_fits
  obtain ⟨-, hgap, hpost⟩ := delays_le_maxCount s.par s.variant
  obtain ⟨-, hgap', hpost'⟩ := one_le_delays s.par s.variant
  rcases transmitCycle_cases s i with
    e | ⟨hc, e⟩ | ⟨hp, -, e⟩ | ⟨-, -, e⟩ | ⟨hp, -, -, e⟩ | ⟨hp, -, -, e⟩ | ⟨hp, -, e⟩ | ⟨hp, -, -, -, e⟩
      | ⟨hp, -, -, hmore, e⟩ | ⟨hp, -, -, e⟩ | ⟨-, -, e⟩ <;> rw [e]
  · exact h
  · exact { h with
      count_pos := fun _ => Nat.le_sub_one_of_lt hc
      count_fits := (Nat.sub_le ..).trans h.count_fits }
  · exact { h with
      length_pos := fun _ => hlen, count_pos := nofun, index_first := fun _ => rfl, index_second := by simp,
      index_rest := nofun }
  · exact .of_no_index h.tx_size hfits h.timeout_pos (fun _ => hlen) nofun h.count_fits (by simp)
  · exact { h with
      length_pos := fun _ => hlen, count_pos := nofun, index_first := nofun, index_second := fun _ => rfl,
      index_rest := nofun }
  · exact { h with
      length_pos := fun _ => hlen, count_pos := fun _ => hgap', count_fits := hgap,
      index_first := nofun, index_second := fun _ => h.index_second (.inl hp), index_rest := nofun }
  · have hone : s.txidx = 1 := h.index_second (.inr hp)
    exact { h with
      length_pos := fun _ => hlen, count_pos := nofun, index_first := nofun, index_second := by simp,
      index_rest := fun _ => by
        change 1 ≤ s.txidx.toNat ∧ s.txidx.toNat < s.txlen.toNat
        rw [hone]
        exact ⟨le_rfl, hlen⟩ }
  · exact .of_no_index h.tx_size hfits h.timeout_pos (fun _ => hlen) nofun h.count_fits (by simp)
  · have hlt := (h.index_rest hp).2
    have hnot : ¬ s.txidx.toNat + 1 = s.txlen.toNat := fun e => hmore ((atLastByte_iff (by omega)).mpr e)
    have hsucc : (s.txidx + 1).toNat = s.txidx.toNat + 1 := by bv_omega
    exact { h with
      index_first := fun e => by simp [hp] at e
      index_second := fun e => by simp [hp] at e
      index_rest := fun _ => by
        change 1 ≤ (s.txidx + 1).toNat ∧ (s.txidx + 1).toNat < s.txlen.toNat
        omega }
  · exact .of_no_index h.tx_size hfits h.timeout_pos (fun _ => hlen) (fun _ => hpost') hpost (by simp)
  · exact .of_no_index h.tx_size hfits h.timeout_pos (fun _ => hlen) (fun _ => h.timeout_pos)
      (rxTimeout_le_maxCount _) (by simp)

/-- RECEIVE counts down while it lasts (42_transceiver.md R216, R224). -/
theorem State.CounterInv.receiveCycle {s : State} (h : s.CounterInv) (hp : s.phase = .receive) (i : CycleIn) :
    (s.receiveCycle i).CounterInv := by
  have hlen := h.length_pos (by simp [hp])
  rcases receiveCycle_cases s i with ⟨-, e⟩ | ⟨u, hu, e⟩
  · rw [e]
    exact .of_no_index h.tx_size h.txlen_fits h.timeout_pos (fun _ => hlen) nofun h.count_fits (by simp)
  have hinv : u.CounterInv ∧ u.phase = .receive ∧ u.cnt = s.cnt := by
    rcases hu with ⟨-, rfl⟩ | ⟨-, rfl | rfl⟩
    · exact ⟨h, hp, rfl⟩
    · exact ⟨h, hp, rfl⟩
    · exact ⟨{ h with }, hp, rfl⟩
  obtain ⟨hinv, hup, hcnt⟩ := hinv
  have hulen := hinv.length_pos (by simp [hup])
  have hufits : s.cnt ≤ u.par.maxCount := hcnt ▸ hinv.count_fits
  rcases e with ⟨-, e⟩ | ⟨-, e⟩ | ⟨hc, e⟩ <;> rw [e]
  · exact .of_no_index hinv.tx_size hinv.txlen_fits hinv.timeout_pos (fun _ => hulen) nofun hinv.count_fits (by simp)
  · exact .of_no_index hinv.tx_size hinv.txlen_fits hinv.timeout_pos (fun _ => hulen) nofun hinv.count_fits (by simp)
  · exact .of_no_index hinv.tx_size hinv.txlen_fits hinv.timeout_pos (fun _ => hulen)
      (fun _ => Nat.le_sub_one_of_lt hc) ((Nat.sub_le ..).trans hufits) (by simp [hup])

/-- A command that ends keeps the count it ended with (60_exceptions.md R325). -/
theorem State.CounterInv.finish {s : State} (h : s.CounterInv) (code l : Code) (a b : Word) :
    (s.finish code l a b).CounterInv :=
  .of_no_index h.tx_size h.txlen_fits h.timeout_pos (absurd rfl) nofun h.count_fits (by simp)

/-- A retry loads the settle delay (43_retry.md R259). -/
theorem State.CounterInv.retry {s : State} (h : s.CounterInv) (hp : s.phase ≠ .idle) : s.retry.CounterInv := by
  refine .of_no_index h.tx_size h.txlen_fits h.timeout_pos (fun _ => h.length_pos hp) (fun _ => ?_) ?_ (by simp)
  · rw [State.retry_cnt]
    exact (one_le_delays s.par s.variant).1
  · rw [State.retry_cnt, State.retry_par]
    exact (delays_le_maxCount s.par s.variant).1

/-- EVAL leaves the counter, or loads the settle delay for the next attempt (43_retry.md R259). -/
theorem State.CounterInv.evalCycle {s : State} (h : s.CounterInv) (hp : s.phase = .eval) (v : Verdict) :
    (s.evalCycle v).CounterInv := by
  have fail (c : Code) : (s.failAttempt c).CounterInv := by
    have hreport : (s.report c s.attempt).CounterInv := { h with }
    rcases failAttempt_cases s c with ⟨-, e⟩ | ⟨-, e⟩ <;> rw [e]
    · exact hreport.retry (by simp [hp])
    · exact hreport.finish ..
  rcases evalCycle_cases s v with ⟨code, a, b, -, -, e⟩ | ⟨c, -, -, e⟩ | ⟨-, e⟩ <;> rw [e]
  · exact h.finish ..
  · exact fail c
  · exact fail s.cause

/-- Every row of the phase table keeps the counter and the index in range. -/
theorem State.CounterInv.sequenced {u v : State} (h : u.CounterInv) (hv : Sequenced u v) : v.CounterInv := by
  cases hv with
  | transmit hp hw =>
    rw [loadRequest_requestBytes (h.tx_size ▸ h.txlen_fits), or_self] at hw
    rw [hw]
    exact h.transmitCycle (fun e => by simp [e, Phase.transmitting] at hp) _
  | receive hp => exact h.receiveCycle hp _
  | judge op v hp hop hw =>
    rcases hw with rfl | rfl
    · exact h.evalCycle hp v
    · exact State.CounterInv.evalCycle (s := u.loadResponse u.responseBytes) { h with } hp v
  | noCommand hp hop => exact h

/-- The length of a command's request, as TXLEN holds it. -/
theorem requestFrame_txlen (p : Params) (op : TransOp) (a : Byte) (v : Half) :
    (BitVec.ofNat 5 (requestFrame p op a v).length).toNat = if op = .asciiRead then 16 else 8 := by
  rw [requestFrame_length]
  split <;> rfl

/-- A command that finishes at its acceptance stays idle, and a transaction starts with its request's length and the
settle delay (44_commands.md R280). -/
theorem State.CounterInv.accepted {s t : State} (h : s.CounterInv) {o : BitVec 4}
    (ha : Accepted (s.acceptCommon o) t) : t.CounterInv := by
  have hidle (u : State) (hu : u.phase = .idle) : u.phase ∉ [Phase.txFirst, .flush1, .gap, .txRest] := by simp [hu]
  cases ha with
  | crcInit =>
    exact .of_no_index h.tx_size (Nat.zero_le _) h.timeout_pos (absurd rfl) nofun h.count_fits (hidle _ rfl)
  | crcByte =>
    exact .of_no_index h.tx_size (Nat.zero_le _) h.timeout_pos (absurd rfl) nofun h.count_fits (hidle _ rfl)
  | refused c hc =>
    exact .of_no_index h.tx_size (Nat.zero_le _) h.timeout_pos (absurd rfl) nofun h.count_fits (hidle _ rfl)
  | started op hop hr hm =>
    have hframe (p : Params) (a : Byte) (v : Half) : (requestFrame p op a v).length ≤ s.txbuf.length := by
      rw [requestFrame_length, h.tx_size]; split <;> omega
    refine .of_no_index ((loadPrefix_length _ _ (hframe ..)).trans h.tx_size) ?_ h.timeout_pos (fun _ => ?_)
      (fun _ => (one_le_delays s.par (variantOf op)).1) (delays_le_maxCount s.par (variantOf op)).1 (by simp)
    · rw [State.startTransaction_txlen, requestFrame_txlen]; split <;> omega
    · rw [State.startTransaction_txlen, requestFrame_txlen]; split <;> omega

/-- Reset empties the counter and stays idle (70_reset_and_hazards.md R360). -/
theorem State.CounterInv.resetEdge {s : State} (h : s.CounterInv) : s.resetEdge.CounterInv :=
  .of_no_index (by simp [State.resetEdge, State.afterReset]) (Nat.zero_le _) h.timeout_pos (absurd rfl) nofun
    (Nat.zero_le _) (by simp [State.resetEdge, State.afterReset])

/-- Settles O47: reset, the acceptance of a command and every row of the phase table keep the counter and the index
in range. -/
theorem stepKeepsCounter : Obligations.StepKeepsCounter := by
  intro s t h hst
  exact step_keeps h hst (fun _ b ha => ha.withHostSide b) h.resetEdge (fun _ _ _ ha => h.accepted ha)
    (fun _ _ hu hv => hu.sequenced hv)

end Sys2Proof.Machine

/-! ## The order of the phases -/

namespace Sys2Proof.Machine

/-- The phases the transmit part leads to (42_transceiver.md R206). -/
theorem transmitCycle_successors {s : State} (ht : s.phase.transmitting = true) (i : CycleIn) :
    (s.transmitCycle i).phase ∈ s.phase.successors := by
  have hstay : s.phase ∈ s.phase.successors := by
    cases hp : s.phase <;> simp [hp, Phase.transmitting, Phase.successors] at ht ⊢
  rcases transmitCycle_cases s i with
    e | ⟨-, e⟩ | ⟨hp, -, e⟩ | ⟨-, hp, e⟩ | ⟨hp, -, -, e⟩ | ⟨hp, -, -, e⟩ | ⟨hp, -, e⟩ | ⟨hp, -, -, -, e⟩
      | ⟨-, -, -, -, e⟩ | ⟨hp, -, -, e⟩ | ⟨hp, -, e⟩ <;> rw [e]
  case inr.inr.inr.inl =>
    simp only [List.mem_cons, List.not_mem_nil, or_false] at hp
    rcases hp with hp | hp | hp | hp <;> simp [hp, Phase.successors]
  case inl | inr.inl | inr.inr.inr.inr.inr.inr.inr.inr.inl => exact hstay
  all_goals simp [hp, Phase.successors]

/-- RECEIVE stays or ends in EVAL (42_transceiver.md R214 to R217). -/
theorem receiveCycle_successors {s : State} (hp : s.phase = .receive) (i : CycleIn) :
    (s.receiveCycle i).phase ∈ s.phase.successors := by
  rw [hp]
  rcases receiveCycle_cases s i with ⟨-, e⟩ | ⟨u, hu, ⟨-, e⟩ | ⟨-, e⟩ | ⟨-, e⟩⟩ <;> rw [e]
  case inr.inr.inr =>
    have hup : u.phase = .receive := by rcases hu with ⟨-, rfl⟩ | ⟨-, rfl | rfl⟩ <;> exact hp
    simp [hup, Phase.successors]
  all_goals simp [Phase.successors]

/-- EVAL lasts one cycle (43_retry.md R259). -/
theorem evalCycle_successors (s : State) (v : Verdict) : (s.evalCycle v).phase ∈ Phase.eval.successors := by
  have fail (c : Code) : (s.failAttempt c).phase ∈ Phase.eval.successors := by
    rcases failAttempt_cases s c with ⟨-, e⟩ | ⟨-, e⟩ <;> rw [e] <;> simp [Phase.successors]
  rcases evalCycle_cases s v with ⟨code, a, b, -, -, e⟩ | ⟨c, -, -, e⟩ | ⟨-, e⟩ <;> rw [e]
  · simp [Phase.successors]
  · exact fail c
  · exact fail s.cause

/-- Every row of the phase table of a transaction command leads to a phase the table names. -/
theorem Sequenced.successors {u v : State} (h : Sequenced u v) {op : TransOp} (hop : TransOp.ofCode u.op = some op) :
    v.phase ∈ u.phase.successors := by
  cases h with
  | transmit ht hw =>
    rcases hw with rfl | rfl
    · exact transmitCycle_successors ht _
    · exact transmitCycle_successors (s := u.loadRequest u.requestBytes) ht _
  | receive hp => exact receiveCycle_successors hp _
  | judge _ v hp => exact hp ▸ evalCycle_successors _ v
  | noCommand _ hnone => simp [hop] at hnone

/-- An accepted command stays idle or begins its exchange (44_commands.md R280). -/
theorem Accepted.phase {a t : State} (h : Accepted a t) : t.phase = .idle ∨ t.phase = .settle := by
  cases h with
  | crcInit | crcByte | refused => exact .inl rfl
  | started => exact .inr rfl

/-- Settles O49: an idle cycle is the host's part, which stays idle or accepts a command, and a busy one a row of the
phase table. -/
theorem phaseOrder : Obligations.PhaseOrder := by
  intro s t h hr hst
  by_cases hp : s.phase = .idle
  · obtain ⟨u, hu, rfl⟩ := step_idle_cases hp hr hst
    have hphase : u.phase = .idle ∨ u.phase = .settle := by
      rcases hostPart_side_or_accepted hu with e | ⟨-, o, ha⟩
      · rw [e]
        exact .inl hp
      · exact ha.phase
    rcases hphase with e | e <;> simp [hp, e, Phase.successors]
  · obtain ⟨u, v, hside, -, hv, rfl⟩ := step_busy_cases hp hr hst
    obtain ⟨op, hop, -⟩ := h hp
    obtain ⟨hphase, hucode, -, -⟩ := fields_of_withHostSide hside
    exact hphase ▸ hv.successors (hucode ▸ hop)

end Sys2Proof.Machine

/-! ## A cycle of RECEIVE -/

namespace Sys2Proof.Machine

open Sys2Proof.Claims

theorem receiveCycle_rxErr {i : CycleIn} (he : i.rxErr = true) (s : State) :
    s.receiveCycle i = s.endReceive .transportError := if_pos he

theorem receiveCycle_silent {i : CycleIn} (he : i.rxErr = false) (hv : i.rxValid = false) (s : State) :
    s.receiveCycle i = s.timeoutCycle := by simp [State.receiveCycle, he, hv]

theorem receiveCycle_fixed {s : State} {i : CycleIn} (he : i.rxErr = false) (hv : i.rxValid = true)
    (hfix : s.explen ≠ 0) : s.receiveCycle i = s.receiveFixed i.rxData := by
  simp only [State.receiveCycle, he, hv, if_neg hfix, Bool.false_eq_true, if_false, if_true]

theorem receiveCycle_line {s : State} {i : CycleIn} (he : i.rxErr = false) (hv : i.rxValid = true)
    (hline : s.explen = 0) : s.receiveCycle i = s.receiveLine i.rxData := by
  simp only [State.receiveCycle, he, hv, if_pos hline, Bool.false_eq_true, if_false, if_true]

theorem receiveFixed_last {s : State} (h : s.rxlen + 1 = s.explen) (b : Byte) :
    s.receiveFixed b = (s.storeByte b).endResponse := if_pos h

theorem receiveFixed_more {s : State} (h : s.rxlen + 1 ≠ s.explen) (b : Byte) :
    s.receiveFixed b = (s.storeByte b).timeoutCycle := if_neg h

theorem receiveLine_end {b : Byte} (h : b = 0x0A) (s : State) :
    s.receiveLine b = (s.storeInLine b).endResponse := if_pos h

theorem receiveLine_more {b : Byte} (h : b ≠ 0x0A) (s : State) :
    s.receiveLine b = (s.storeInLine b).timeoutCycle := if_neg h

theorem timeoutCycle_running {s : State} (h : 1 < s.cnt) : s.timeoutCycle = { s with cnt := s.cnt - 1 } :=
  if_neg (by omega)

theorem timeoutCycle_over {s : State} (h : s.cnt ≤ 1) : s.timeoutCycle = s.endReceive .shortRead := if_pos h

@[simp] theorem State.storeInLine_cnt (s : State) (b : Byte) : (s.storeInLine b).cnt = s.cnt := by
  unfold State.storeInLine
  split <;> rfl

/-- The whole step in RECEIVE, on the state the host's part left. -/
theorem step_of_receive {s u : State} (hp : s.phase = .receive) (hr : s.now.rst = false)
    (hw : s.now.host.whole = true) (hu : s.hostPart = .next u) :
    step s = .next (s.closeCycle (u.receiveCycle s.now)) := by
  have hbusy : s.phase ≠ .idle := by simp [hp]
  obtain ⟨hside, hnow⟩ := hostPart_busy_withHostSide hbusy hu
  obtain ⟨hphase, -, -, -⟩ := fields_of_withHostSide hside
  obtain ⟨v, hv⟩ := sequencerPart_next s u
  rw [step_of_hostPart hr hw hu hv]
  cases sequenced_of_sequencerPart hbusy hu hv with
  | transmit ht => simp [hphase, hp, Phase.transmitting] at ht
  | receive => rw [hnow]
  | judge _ _ he => simp [hphase, hp] at he
  | noCommand he => simp [hphase, hp] at he

/-- Settles O54: each clause is one path through the receive cycle, run on what the host's part left. -/
theorem receiveCycle : Obligations.ReceiveCycle := by
  intro s u hp hr hw hu d stored kept
  have hstep := step_of_receive hp hr hw hu
  obtain ⟨hview, hpar⟩ := hostPart_busy_view (by simp [hp]) hu
  simp only [sequencerView, Prod.mk.injEq] at hview
  obtain ⟨⟨-, -, -, -, -, -, -, hcnt, -, -⟩, ⟨hrxlen, hexplen, -, -, hrxbuf, -⟩, -⟩ := hview
  have hstored : u.storeByte d = stored := by rw [State.storeByte, hrxlen, hrxbuf]
  have hkept : u.storeInLine d = kept := by rw [State.storeInLine, hrxlen, hpar, hstored]
  have hscnt : stored.cnt = s.cnt := hcnt
  have hkcnt : kept.cnt = s.cnt := by rw [← hkept, State.storeInLine_cnt, hcnt]
  refine ⟨fun he => ?_, fun he hv hc => ?_, fun he hv hc => ?_, fun he hv hfix hlast => ?_,
    fun he hv hfix hmore hc => ?_, fun he hv hfix hmore hc => ?_, fun he hv hline hend => ?_,
    fun he hv hline hmore hc => ?_, fun he hv hline hmore hc => ?_⟩ <;> rw [hstep]
  · rw [receiveCycle_rxErr he]
    rfl
  · rw [receiveCycle_silent he hv, timeoutCycle_running (by omega), hcnt]
  · rw [receiveCycle_silent he hv, timeoutCycle_over (by omega)]
    rfl
  · rw [receiveCycle_fixed he hv (by rwa [hexplen]), receiveFixed_last (by rwa [hrxlen, hexplen]), hstored]
    rfl
  · rw [receiveCycle_fixed he hv (by rwa [hexplen]), receiveFixed_more (by rwa [hrxlen, hexplen]), hstored,
      timeoutCycle_running (by omega), hscnt]
  · rw [receiveCycle_fixed he hv (by rwa [hexplen]), receiveFixed_more (by rwa [hrxlen, hexplen]), hstored,
      timeoutCycle_over (by omega)]
    rfl
  · rw [receiveCycle_line he hv (by rwa [hexplen]), receiveLine_end hend, hkept]
    rfl
  · rw [receiveCycle_line he hv (by rwa [hexplen]), receiveLine_more hmore, hkept, timeoutCycle_running (by omega),
      hkcnt]
  · rw [receiveCycle_line he hv (by rwa [hexplen]), receiveLine_more hmore, hkept, timeoutCycle_over (by omega)]
    rfl

end Sys2Proof.Machine

/-! ## Request frames as instructions

A request frame's meaning is the phase table's row with that frame in TXBUF (log entry 6). -/

namespace Sys2Proof.Machine

open Sys2Proof.Claims

/-- The seven request rows share one meaning. -/
theorem exec_of_isRequest {i : Instr} (h : isRequest i = true) (s : State) :
    exec i s = .next (s.sendFrame (encode s.par i)) := by
  cases i with
  | reqReadTemp | reqReadEmis | reqWriteId | reqWriteEmis | reqCo2Query | reqCo2Status | reqAsciiRead => rfl
  | _ => cases h

/-- The five response rows share one meaning, each for a command it answers. -/
theorem exec_of_isResponse {i : Instr} (h : isResponse i = true) (s : State) :
    ∃ op, exec i s = .next (s.judgeFrame op (encode s.par i)) := by
  cases i with
  | rspReadTemp | rspReadEmis | rspWrite | rspCo2 | rspAscii => exact ⟨_, rfl⟩
  | _ => cases h

/-- In the transmit part a request frame is sent from TXBUF, one cycle of it. -/
theorem exec_request_transmitting {i : Instr} (h : isRequest i = true) {s : State} (ht : s.phase.transmitting = true) :
    exec i s = .next ((withRequest s (encode s.par i)).transmitCycle s.now) := by
  rw [exec_of_isRequest h, sendFrame_of_transmitting ht]
  rfl

/-- TXLEN holds a request's length (30_encoding.md R103). -/
theorem withRequest_txlen {i : Instr} (h : isRequest i = true) (s : State) (p : Params) :
    (withRequest s (encode p i)).txlen.toNat = (encode p i).length := by
  cases i with
  | reqReadTemp | reqReadEmis | reqWriteId | reqWriteEmis | reqCo2Query | reqCo2Status | reqAsciiRead => rfl
  | _ => cases h

theorem transmitting_of_offering {p : Phase} (h : offering p = true) : p.transmitting = true := by
  rcases offering_iff.mp h with rfl | rfl | rfl | rfl <;> rfl

/-- Settles O18: the counted rows of the phase table, with the frame in TXBUF. -/
theorem requestWaitsOutItsDelays : Obligations.RequestWaitsOutItsDelays := by
  intro i s hi t
  refine ⟨fun hp hc => ?_, fun hp hc => ?_, fun hp hc => ?_, fun hp hc => ?_⟩
  · have ht : s.phase.transmitting = true := by rcases hp with hp | hp | hp <;> rw [hp] <;> rfl
    rw [exec_request_transmitting hi ht, transmitCycle_counting (s := t) hp hc]
    rfl
  · rw [exec_request_transmitting hi (by rw [hp]; rfl), transmitCycle_settle (s := t) hp, countdown_over (s := t) hc]
  · rw [exec_request_transmitting hi (by rw [hp]; rfl), transmitCycle_gap (s := t) hp, countdown_over (s := t) hc]
  · rw [exec_request_transmitting hi (by rw [hp]; rfl), transmitCycle_postwrite (s := t) hp,
      countdown_over (s := t) hc]
    rfl

/-- Settles O19: the offering rows of the phase table, with the frame in TXBUF and its length in TXLEN. -/
theorem requestBytesAreHandedOver : Obligations.RequestBytesAreHandedOver := by
  intro i s hi he t
  have hlen : t.txlen.toNat = (encode s.par i).length := withRequest_txlen hi s s.par
  refine ⟨fun hp hr => ?_, fun hp hr hk => ?_, fun hp hr hk => ?_, fun hp hr => ?_⟩
  · rw [exec_request_transmitting hi (by rw [hp]; rfl), transmitCycle_txFirst (s := t) hp he, if_pos hr]
  · rw [exec_request_transmitting hi (by rw [hp]; rfl),
      transmitCycle_lastByte (s := t) hp he hr (hk.trans hlen.symm)]
  · rw [exec_request_transmitting hi (by rw [hp]; rfl),
      transmitCycle_nextByte (s := t) hp he hr (hk.trans_eq hlen.symm)]
    rfl
  · rcases hp with hp | hp
    · rw [exec_request_transmitting hi (by rw [hp]; rfl), transmitCycle_txFirst (s := t) hp he,
        if_neg (Bool.not_eq_true _ ▸ hr)]
    · rw [exec_request_transmitting hi (by rw [hp]; rfl), transmitCycle_txRest (s := t) hp he,
        if_neg (Bool.not_eq_true _ ▸ hr)]

/-- Settles O20: the flush rows of the phase table, with the frame in TXBUF. -/
theorem requestFlushWaitsForIdle : Obligations.RequestFlushWaitsForIdle := by
  intro i s hi he t
  refine ⟨fun hp hidle => ?_, fun hp hidle => ?_, fun hp hidle => ?_⟩
  · rw [exec_request_transmitting hi (by rw [hp]; rfl), transmitCycle_flush1 (s := t) hp he, if_pos hidle]
    rfl
  · rw [exec_request_transmitting hi (by rw [hp]; rfl), transmitCycle_flush2 (s := t) hp he, if_pos hidle]
    rfl
  · rcases hp with hp | hp
    · rw [exec_request_transmitting hi (by rw [hp]; rfl), transmitCycle_flush1 (s := t) hp he,
        if_neg (Bool.not_eq_true _ ▸ hidle)]
    · rw [exec_request_transmitting hi (by rw [hp]; rfl), transmitCycle_flush2 (s := t) hp he,
        if_neg (Bool.not_eq_true _ ▸ hidle)]

/-- Settles O21: the error's row comes first in every phase that listens to the transport, and R200 asks for no error
in a transfer. -/
theorem transmitErrorAborts : Obligations.TransmitErrorAborts := by
  intro i s hi hp he
  refine ⟨?_, by simp [State.wireByte, he]⟩
  rw [exec_request_transmitting hi (transmitting_of_offering hp),
    transmitCycle_txErr (s := withRequest s (encode s.par i)) hp he]
  rfl

/-- Settles O31: outside its phases a frame's meaning is the state as it is. -/
theorem framesOutsideTheirPhases : Obligations.FramesOutsideTheirPhases := by
  intro i s
  refine ⟨fun hi hp => ?_, fun hi hp => ?_⟩
  · have ht : ¬ s.phase.transmitting = true := by rcases hp with hp | hp | hp <;> simp [hp, Phase.transmitting]
    rw [exec_of_isRequest hi, sendFrame_of_not_transmitting ht]
  · obtain ⟨op, h⟩ := exec_of_isResponse hi s
    rw [h, judgeFrame_of_not_eval hp]

end Sys2Proof.Machine

/-! ## The signals a phase listens to

42_transceiver.md R219 as one statement: a cycle is the same with every signal silenced that its phase does not listen
to. -/

namespace Sys2Proof.Machine

open Sys2Proof.Claims

/-! ### The host's part beside other inputs -/

@[simp] theorem withNow_now (s : State) (i : CycleIn) : (withNow s i).now = i := rfl

/-- Acceptance does not look at the cycle's inputs, if the command's body does not. -/
theorem accept_withNow {f : State → State} (hf : ∀ s i, f (withNow s i) = withNow (f s) i) (s : State) (i : CycleIn)
    (o : BitVec 4) : (withNow s i).accept o f = withNow (s.accept o f) i := by
  by_cases hp : s.phase = .idle
  · rw [accept_idle hp, accept_idle (s := withNow s i) hp, ← hf]
    rfl
  · rw [accept_busy hp, accept_busy (s := withNow s i) hp]
    rfl

theorem transact_withNow (op : TransOp) (s : State) (i : CycleIn) :
    (withNow s i).transact op = withNow (s.transact op) i := by
  rw [State.transact, State.transact, apply_ite (withNow · i), apply_ite (withNow · i)]
  rfl

/-- No command looks at the cycle's inputs. -/
theorem exec_decodeCommand_withNow (w : Word) (s : State) (i : CycleIn) :
    exec (decodeCommand w) (withNow s i) = andThen (exec (decodeCommand w) s) (fun t => .next (withNow t i)) := by
  have accepted {o : BitVec 4} {f : State → State} (hf : ∀ s i, f (withNow s i) = withNow (f s) i) :
      (.next ((withNow s i).accept o f) : Host.Outcome State Fault Refusal)
        = andThen (.next (s.accept o f)) (fun t => .next (withNow t i)) :=
    congrArg _ (accept_withNow hf s i o)
  unfold decodeCommand
  split
  case h_2 | h_3 => exact accepted fun _ _ => rfl
  case h_4 | h_5 | h_6 | h_7 | h_8 | h_9 | h_10 => exact accepted (transact_withNow _)
  all_goals exact accepted (f := State.illegal) fun _ _ => rfl

theorem writeReg_withNow (s : State) (i : CycleIn) (r : Reg) (w : Word) :
    (withNow s i).writeReg r w = withNow (s.writeReg r w) i := by
  cases r <;> rfl

/-- The host's part of a cycle looks at the host's access alone. -/
theorem hostPart_withNow {s u : State} (hu : s.hostPart = .next u) {i : CycleIn} (hi : i.host = s.now.host) :
    (withNow s i).hostPart = .next (withNow u i) := by
  have hreg : (withNow s i).hostReg = s.hostReg := by
    simp only [State.hostReg, withNow_now, hi]
    rfl
  have hwrite : (withNow s i).commandWrite = s.commandWrite := by
    simp only [State.commandWrite, hreg, withNow_now, hi]
  by_cases hw : s.commandWrite = true
  · rw [hostPart_of_commandWrite hw] at hu
    rw [hostPart_of_commandWrite (hwrite.trans hw), withNow_now, hi, exec_decodeCommand_withNow, hu]
    rfl
  · rw [Bool.not_eq_true] at hw
    rw [hostPart_of_not_commandWrite hw] at hu
    cases hu
    rw [hostPart_of_not_commandWrite (hwrite.trans hw), State.hostCycle, State.hostCycle, hreg, withNow_now, hi,
      writeReg_withNow, apply_ite (withNow · i)]

/-! ### The sequencer's part beside other inputs -/

/-- What does not read the host's side but for the wire does not look at the cycle's inputs either. -/
theorem withNow_of_withHostSide {f : State → State} {s : State} {i : CycleIn} {b : BitVec 2}
    (hs : f (s.withHostSide s) = (f s).withHostSide (s.setIrq b))
    (hi : f (s.withHostSide (withNow s i)) = (f s).withHostSide ((withNow s i).setIrq b)) :
    f (withNow s i) = withNow (f s) i :=
  calc f (withNow s i) = withNow ((f s).withHostSide (s.setIrq b)) i := hi
    _ = withNow (f (s.withHostSide s)) i := by rw [hs]

theorem transmitCycle_withNow (s : State) (i j : CycleIn) :
    (withNow s i).transmitCycle j = withNow (s.transmitCycle j) i :=
  withNow_of_withHostSide (f := (·.transmitCycle j)) (b := 0#2)
    ((transmitCycle_withHostSide s s j).trans (by rw [State.setIrq_zero]))
    ((transmitCycle_withHostSide s (withNow s i) j).trans (by rw [State.setIrq_zero]))

theorem receiveCycle_withNow (s : State) (i j : CycleIn) :
    (withNow s i).receiveCycle j = withNow (s.receiveCycle j) i :=
  withNow_of_withHostSide (f := (·.receiveCycle j)) (b := 0#2)
    ((receiveCycle_withHostSide s s j).trans (by rw [State.setIrq_zero]))
    ((receiveCycle_withHostSide s (withNow s i) j).trans (by rw [State.setIrq_zero]))

theorem evalCycle_withNow (s : State) (v : Verdict) (i : CycleIn) :
    (withNow s i).evalCycle v = withNow (s.evalCycle v) i := by
  obtain ⟨b, hb⟩ := evalCycle_withHostSide s v
  exact withNow_of_withHostSide (f := (·.evalCycle v)) (hb s) (hb (withNow s i))

/-- The inputs of a cycle with every signal silenced that a phase does not listen to (42_transceiver.md R219). -/
def heardIn (p : Phase) (i : CycleIn) : CycleIn :=
  { i with
    txReady := offering p && i.txReady, txIdle := offering p && i.txIdle, txErr := offering p && i.txErr,
    rxValid := decide (p = .receive) && i.rxValid, rxErr := decide (p = .receive) && i.rxErr,
    rxData := if p = .receive then i.rxData else 0 }

/-- The transmit part hears the transport's transmit signals, where it listens to them. -/
theorem transmitCycle_heardIn (s : State) (i : CycleIn) : s.transmitCycle (heardIn s.phase i) = s.transmitCycle i := by
  by_cases ho : offering s.phase = true
  · simp only [State.transmitCycle, heardIn, ho, Bool.true_and]
  · cases hp : s.phase <;> simp only [State.transmitCycle, hp] <;> exact absurd (by rw [hp]; rfl) ho

/-- RECEIVE hears the received byte and the line error. -/
theorem receiveCycle_heardIn {s : State} (hp : s.phase = .receive) (i : CycleIn) :
    s.receiveCycle (heardIn s.phase i) = s.receiveCycle i := by
  simp only [State.receiveCycle, heardIn, hp, decide_true, Bool.true_and, if_true]

theorem transmitCycle_of_heard {s : State} {i j : CycleIn} (h : heardIn s.phase i = heardIn s.phase j) :
    s.transmitCycle i = s.transmitCycle j := by
  rw [← transmitCycle_heardIn, h, transmitCycle_heardIn]

theorem receiveCycle_of_heard {s : State} (hp : s.phase = .receive) {i j : CycleIn}
    (h : heardIn s.phase i = heardIn s.phase j) : s.receiveCycle i = s.receiveCycle j := by
  rw [← receiveCycle_heardIn hp, h, receiveCycle_heardIn hp]

theorem sendFrame_withNow {s : State} {i : CycleIn} (h : heardIn s.phase i = heardIn s.phase s.now) (bs : List Byte) :
    (withNow s i).sendFrame bs = withNow (s.sendFrame bs) i := by
  by_cases ht : s.phase.transmitting = true
  · rw [sendFrame_of_transmitting ht, sendFrame_of_transmitting (s := withNow s i) ht, withNow_now,
      ← transmitCycle_of_heard (s := s.loadRequest bs) h, ← transmitCycle_withNow]
    rfl
  · rw [sendFrame_of_not_transmitting ht, sendFrame_of_not_transmitting (s := withNow s i) ht]

theorem judgeFrame_withNow (s : State) (i : CycleIn) (op : TransOp) (bs : List Byte) :
    (withNow s i).judgeFrame op bs = withNow (s.judgeFrame op bs) i := by
  by_cases he : s.phase = .eval
  · rw [judgeFrame_of_eval he, judgeFrame_of_eval (s := withNow s i) he, ← evalCycle_withNow]
    rfl
  · rw [judgeFrame_of_not_eval he, judgeFrame_of_not_eval (s := withNow s i) he]

theorem sequencerCycle_withNow {s : State} {i : CycleIn} (h : heardIn s.phase i = heardIn s.phase s.now) :
    (withNow s i).sequencerCycle = withNow s.sequencerCycle i := by
  by_cases ht : s.phase.transmitting = true
  · rw [sequencerCycle_of_transmitting ht, sequencerCycle_of_transmitting (s := withNow s i) ht, withNow_now,
      ← transmitCycle_of_heard h, transmitCycle_withNow]
  cases hp : s.phase
  case idle => rw [sequencerCycle_of_idle hp, sequencerCycle_of_idle (s := withNow s i) hp]
  case receive =>
    rw [sequencerCycle_of_receive hp, sequencerCycle_of_receive (s := withNow s i) hp, withNow_now,
      ← receiveCycle_of_heard hp h, receiveCycle_withNow]
  case eval =>
    rw [sequencerCycle_of_eval hp, sequencerCycle_of_eval (s := withNow s i) hp]
    cases hop : TransOp.ofCode s.op with
    | none => rw [evalBuffer_of_none hop, evalBuffer_of_none (s := withNow s i) hop]
    | some op =>
      rw [evalBuffer_of_some hop, evalBuffer_of_some (s := withNow s i) hop, ← evalCycle_withNow]
      rfl
  all_goals simp [hp, Phase.transmitting] at ht

/-- The sequencer's part hears what its phase listens to, whatever it fetches. -/
theorem sequencerPart_withNow {s u v : State} {i : CycleIn} (hu : s.hostPart = .next u)
    (hv : s.sequencerPart u = .next v) (h : heardIn s.phase i = heardIn s.phase s.now) :
    (withNow s i).sequencerPart (withNow u i) = .next (withNow v i) := by
  by_cases hp : s.phase = .idle
  · rw [sequencerPart_idle hp] at hv
    cases hv
    exact sequencerPart_idle (s := withNow s i) hp
  obtain ⟨hside, hnow⟩ := hostPart_busy_withHostSide hp hu
  obtain ⟨hphase, hop, -, -⟩ := fields_of_withHostSide hside
  have hu : heardIn u.phase i = heardIn u.phase u.now := by rw [hphase, hnow, h]
  have hframe : (withNow s i).fetchFrame = s.fetchFrame := rfl
  rw [State.sequencerPart, if_neg hp] at hv
  rw [State.sequencerPart, if_neg (show (withNow s i).phase ≠ .idle from hp), hframe]
  cases hf : s.fetchFrame with
  | none =>
    rw [hf] at hv
    cases hv
    exact congrArg _ (sequencerCycle_withNow hu)
  | some f =>
    simp only [hf] at hv ⊢
    obtain ⟨op, hcode, hd | hd⟩ := fetchFrame_eq_some hf
    · rw [exec_of_decodeRequest hd] at hv ⊢
      cases hv
      exact congrArg _ (sendFrame_withNow hu _)
    · have ho : u.op = op.code := hop.trans (ofCode_eq_some hcode)
      rw [exec_of_decodeResponse hd ho] at hv
      rw [exec_of_decodeResponse hd (s := withNow u i) ho]
      cases hv
      exact congrArg _ (judgeFrame_withNow u i op _)

/-- The read data of a cycle depends on the host's access and on reset alone (20_memory.md R62). -/
theorem outputs_withNow {s : State} {i : CycleIn} (hhost : i.host = s.now.host) (hrst : i.rst = s.now.rst) :
    (withNow s i).outputs = s.outputs := by
  simp only [State.outputs, State.hostRead, withNow_now, hhost, hrst]
  rfl

/-- A step hears nothing but the host, reset and what its phase listens to (42_transceiver.md R219). -/
theorem step_of_heard {s : State} {i : CycleIn} (hr : s.now.rst = false)
    (h : heardIn s.phase i = heardIn s.phase s.now) : step (withNow s i) = step s := by
  have hrst : i.rst = s.now.rst := (congrArg CycleIn.rst h :)
  have hhost : i.host = s.now.host := (congrArg CycleIn.host h :)
  have hr' : (withNow s i).now.rst = false := hrst.trans hr
  by_cases hw : s.now.host.whole = true
  · have hw' : (withNow s i).now.host.whole = true := by rw [withNow_now, hhost, hw]
    obtain ⟨u, hu⟩ := hostPart_next s
    obtain ⟨v, hv⟩ := sequencerPart_next s u
    rw [step_of_hostPart hr hw hu hv,
      step_of_hostPart hr' hw' (hostPart_withNow hu hhost) (sequencerPart_withNow hu hv h), State.closeCycle,
      outputs_withNow hhost hrst]
    rfl
  · simp [step, State.clock, hrst, hr, hhost, hw]

/-- Settles O53: the signals that differ are silenced by the phase. -/
theorem inputsOutsideTheirPhases : Obligations.InputsOutsideTheirPhases := by
  intro s hr
  refine ⟨fun hp v e d => ?_, fun ho a b c => ?_⟩
  · rw [step_of_heard hr rfl, step_of_heard hr]
    simp only [heardIn, hp, decide_false, Bool.false_and, if_false]
  · rw [step_of_heard hr rfl, step_of_heard hr]
    simp only [heardIn, ho, Bool.false_and]

end Sys2Proof.Machine

/-! ## Runs of plain cycles -/

namespace Sys2Proof.Machine

open Sys2Proof.Claims

theorem stepN_succ {s t : State} (h : step s = .next t) (n : Nat) : stepN (n + 1) s = stepN n t := by
  rw [stepN, h, andThen]

/-- A step uses up the cycle's inputs. -/
theorem step_inputs {s t : State} (h : step s = .next t) : t.inputs = s.inputs.tail := by
  rcases step_cases s with ⟨-, e⟩ | ⟨-, -, e⟩ | ⟨-, -, u, v, -, -, e⟩ <;> rw [e] at h <;> cases h <;> rfl

theorem plainCycle_iff {i : CycleIn} : plainCycle i = true ↔ i.rst = false ∧ i.host.whole = true := by
  simp [plainCycle]

/-- The first of the scheduled cycles, and the others. -/
theorem plainFor_succ {s : State} {n : Nat} (h : s.plainFor (n + 1)) :
    plainCycle s.now = true ∧ s.now ∈ s.inputs.take (n + 1) ∧ s.inputs.tail.take n ⊆ s.inputs.take (n + 1)
      ∧ ∀ t : State, t.inputs = s.inputs.tail → t.plainFor n := by
  obtain ⟨hlen, hplain⟩ := h
  cases hi : s.inputs with
  | nil => simp [hi] at hlen
  | cons i l =>
    have hnow : s.now = i := by simp [State.now, hi]
    simp only [hi, List.take_succ_cons, List.forall_mem_cons, List.length_cons] at hplain hlen
    refine ⟨hnow ▸ hplain.1, by simp [hnow], by simp, fun t ht => ?_⟩
    rw [State.plainFor, ht]
    exact ⟨by simpa using hlen, hplain.2⟩

/-- A plain cycle of the transmit part is the phase table's row, on a state that may differ from the one before it in
the host's side and in TXBUF. -/
theorem step_transmitting {s : State} (ht : s.phase.transmitting = true) (hplain : plainCycle s.now = true) :
    ∃ w : State, w.phase = s.phase ∧ w.cnt = s.cnt ∧ w.txidx = s.txidx
      ∧ step s = .next (s.closeCycle (w.transmitCycle s.now)) := by
  obtain ⟨hr, hw⟩ := plainCycle_iff.mp hplain
  have hbusy : s.phase ≠ .idle := fun e => by simp [e, Phase.transmitting] at ht
  obtain ⟨u, hu⟩ := hostPart_next s
  obtain ⟨v, hv⟩ := sequencerPart_next s u
  rw [step_of_hostPart hr hw hu hv]
  obtain ⟨hside, hnow⟩ := hostPart_busy_withHostSide hbusy hu
  have hfields : u.phase = s.phase ∧ u.cnt = s.cnt ∧ u.txidx = s.txidx := by rw [hside]; exact ⟨rfl, rfl, rfl⟩
  obtain ⟨hphase, hcnt, hidx⟩ := hfields
  cases sequenced_of_sequencerPart hbusy hu hv with
  | @transmit w _ hload =>
    refine ⟨w, ?_, ?_, ?_, by rw [hnow]⟩ <;> rcases hload with rfl | rfl <;> assumption
  | receive hp => simp [← hphase, hp, Phase.transmitting] at ht
  | judge _ _ hp => simp [← hphase, hp, Phase.transmitting] at ht
  | noCommand hp => simp [← hphase, hp, Phase.transmitting] at ht

/-! ### Counted delays -/

/-- The phases of the transmit part that count, and where they lead (42_transceiver.md R206). -/
def delayEnd (p : Phase) : Phase := if p = .settle then .txFirst else if p = .gap then .txRest else .receive

theorem transmitting_of_delay {p : Phase} (hp : p = .settle ∨ p = .gap ∨ p = .postwrite) : p.transmitting = true := by
  rcases hp with rfl | rfl | rfl <;> rfl

/-- The last cycle of a counted delay. -/
theorem transmitCycle_delayEnd {s : State} (hp : s.phase = .settle ∨ s.phase = .gap ∨ s.phase = .postwrite)
    (hc : s.cnt ≤ 1) (i : CycleIn) : (s.transmitCycle i).phase = delayEnd s.phase := by
  rcases hp with hp | hp | hp
  · rw [transmitCycle_settle hp, countdown_over hc, hp]; rfl
  · rw [transmitCycle_gap hp, countdown_over hc, hp]; rfl
  · rw [transmitCycle_postwrite hp, countdown_over hc, hp]; rfl

theorem step_delay_running {s : State} (hp : s.phase = .settle ∨ s.phase = .gap ∨ s.phase = .postwrite)
    (hplain : plainCycle s.now = true) (hc : 1 < s.cnt) :
    ∃ t, step s = .next t ∧ t.phase = s.phase ∧ t.cnt = s.cnt - 1 := by
  obtain ⟨w, hwp, hwc, -, hstep⟩ := step_transmitting (transmitting_of_delay hp) hplain
  refine ⟨_, hstep, ?_⟩
  rw [transmitCycle_counting (hwp ▸ hp) (hwc ▸ hc)]
  exact ⟨hwp, congrArg (· - 1) hwc⟩

theorem step_delay_over {s : State} (hp : s.phase = .settle ∨ s.phase = .gap ∨ s.phase = .postwrite)
    (hplain : plainCycle s.now = true) (hc : s.cnt ≤ 1) : ∃ t, step s = .next t ∧ t.phase = delayEnd s.phase := by
  obtain ⟨w, hwp, hwc, -, hstep⟩ := step_transmitting (transmitting_of_delay hp) hplain
  exact ⟨_, hstep, (transmitCycle_delayEnd (hwp ▸ hp) (hwc ▸ hc) _).trans (congrArg delayEnd hwp)⟩

/-- Settles O56, by induction on the count: each cycle but the last takes one off the counter. -/
theorem countedDelayIsExact : Obligations.CountedDelayIsExact := by
  intro s n hp hc hplain
  induction n generalizing s with
  | zero =>
    obtain ⟨hnow, -⟩ := plainFor_succ hplain
    obtain ⟨t, hstep, ht⟩ := step_delay_over hp hnow hc.le
    refine ⟨fun k hk => ⟨s, ?_⟩, t, stepN_succ hstep 0, ht⟩
    obtain rfl : k = 0 := by omega
    exact ⟨rfl, rfl, hc⟩
  | succ n ih =>
    obtain ⟨hnow, -, -, hrest⟩ := plainFor_succ hplain
    obtain ⟨t, hstep, htp, htc⟩ := step_delay_running hp hnow (by omega)
    obtain ⟨hwait, hend⟩ := ih t (htp ▸ hp) (by omega) (hrest t (step_inputs hstep))
    rw [htp] at hend
    refine ⟨fun k hk => ?_, (stepN_succ hstep (n + 1)).symm ▸ hend⟩
    cases k with
    | zero => exact ⟨s, rfl, rfl, hc⟩
    | succ k =>
      obtain ⟨u, hu, hup, huc⟩ := hwait k (by omega)
      exact ⟨u, (stepN_succ hstep k).trans hu, hup.trans htp, by omega⟩

/-! ### RECEIVE -/

/-- A plain cycle of RECEIVE ends the phase or counts down (42_transceiver.md R214 to R217). -/
theorem step_receiving {s : State} (hp : s.phase = .receive) (hplain : plainCycle s.now = true) :
    ∃ t, step s = .next t ∧ (t.phase = .eval ∨ (1 < s.cnt ∧ t.phase = .receive ∧ t.cnt = s.cnt - 1)) := by
  obtain ⟨hr, hw⟩ := plainCycle_iff.mp hplain
  obtain ⟨u, hu⟩ := hostPart_next s
  refine ⟨_, step_of_receive hp hr hw hu, ?_⟩
  obtain ⟨hside, -⟩ := hostPart_busy_withHostSide (by simp [hp]) hu
  have hfields : u.phase = .receive ∧ u.cnt = s.cnt := by rw [hside]; exact ⟨hp, rfl⟩
  obtain ⟨hup, huc⟩ := hfields
  rcases receiveCycle_cases u s.now with ⟨-, e⟩ | ⟨w, hw, ⟨-, e⟩ | ⟨-, e⟩ | ⟨hc, e⟩⟩ <;> rw [e]
  · exact .inl rfl
  · exact .inl rfl
  · exact .inl rfl
  · have hwp : w.phase = .receive := by rcases hw with ⟨-, rfl⟩ | ⟨-, rfl | rfl⟩ <;> exact hup
    exact .inr ⟨huc ▸ hc, hwp, congrArg (· - 1) huc⟩

/-- Settles O57, by induction on the count: a cycle that does not end the phase takes one off the counter. -/
theorem receiveIsBounded : Obligations.ReceiveIsBounded := by
  intro s n hp hc hplain
  induction n generalizing s with
  | zero =>
    obtain ⟨hnow, -⟩ := plainFor_succ hplain
    obtain ⟨t, hstep, he | ⟨hlt, -⟩⟩ := step_receiving hp hnow
    · exact ⟨1, t, le_rfl, le_rfl, stepN_succ hstep 0, he⟩
    · omega
  | succ n ih =>
    obtain ⟨hnow, -, -, hrest⟩ := plainFor_succ hplain
    obtain ⟨t, hstep, he | ⟨-, htp, htc⟩⟩ := step_receiving hp hnow
    · exact ⟨1, t, le_rfl, by omega, stepN_succ hstep 0, he⟩
    · obtain ⟨k, u, -, hk, hu, hue⟩ := ih t htp (by omega) (hrest t (step_inputs hstep))
      exact ⟨k + 1, u, by omega, by omega, (stepN_succ hstep k).trans hu, hue⟩

/-! ### The hang -/

/-- In phase `p` the transport neither takes what the phase waits for nor reports an error (42_transceiver.md R227). -/
def stalls (p : Phase) (i : CycleIn) : Prop :=
  ((p = .txFirst ∨ p = .txRest) ∧ i.txReady = false ∧ i.txErr = false)
    ∨ ((p = .flush1 ∨ p = .flush2) ∧ i.txIdle = false ∧ i.txErr = false)

theorem stalls.transmitting {p : Phase} {i : CycleIn} (h : stalls p i) : p.transmitting = true := by
  rcases h with ⟨rfl | rfl, -⟩ | ⟨rfl | rfl, -⟩ <;> rfl

/-- A stalling transport leaves the transmit part as it is. -/
theorem transmitCycle_of_stalls {s : State} {i : CycleIn} (h : stalls s.phase i) : s.transmitCycle i = s := by
  rcases h with ⟨hp | hp, hwait, he⟩ | ⟨hp | hp, hwait, he⟩
  · rw [transmitCycle_txFirst hp he, hwait]; rfl
  · rw [transmitCycle_txRest hp he, hwait]; rfl
  · rw [transmitCycle_flush1 hp he, hwait]; rfl
  · rw [transmitCycle_flush2 hp he, hwait]; rfl

/-- The hang lasts as long as the transport stalls. -/
theorem stepN_of_stalls {n : Nat} : ∀ {s : State}, s.plainFor n → (∀ i ∈ s.inputs.take n, stalls s.phase i) →
    ∃ t, stepN n s = .next t ∧ t.phase = s.phase ∧ t.txidx = s.txidx := by
  induction n with
  | zero => exact fun {s} _ _ => ⟨s, rfl, rfl, rfl⟩
  | succ n ih =>
    intro s hplain hstall
    obtain ⟨hnow, hfirst, hsub, hrest⟩ := plainFor_succ hplain
    have hs := hstall _ hfirst
    obtain ⟨w, hwp, -, hwi, hstep⟩ := step_transmitting hs.transmitting hnow
    rw [transmitCycle_of_stalls (hwp.symm ▸ hs)] at hstep
    have hin := step_inputs hstep
    obtain ⟨t, ht, htp, hti⟩ := ih (hrest _ hin) fun i hi => by
      rw [hin] at hi
      exact hwp.symm ▸ hstall i (hsub hi)
    exact ⟨t, (stepN_succ hstep n).trans ht, htp.trans hwp, hti.trans hwi⟩

/-- Settles O58: both premises say that the transport stalls. -/
theorem transmitHangIsAdmitted : Obligations.TransmitHangIsAdmitted := by
  intro s n hplain h
  refine stepN_of_stalls hplain ?_
  rcases h with ⟨hp, h⟩ | ⟨hp, h⟩
  · exact fun i hi => .inl ⟨hp, h i hi⟩
  · exact fun i hi => .inr ⟨hp, h i hi⟩

end Sys2Proof.Machine

/-! ## A whole exchange

42_transceiver.md R222, phase by phase. A run is described up to the model's own record of the outputs and the cycle's
number, which the block does not read. -/

namespace Sys2Proof.Machine

open Sys2Proof.Claims

/-! ### Runs of an exchange -/

/-- `n` steps of an exchange lead from `s` to `t` without going through EVAL or IDLE, and the bytes in `wire` are handed
to the transport on the way. -/
inductive Exchange : Nat → State → List Byte → State → Prop where
  | done (s : State) : Exchange 0 s [] s
  | cycle {n : Nat} {s t u : State} {wire : List Byte} (he : s.phase ≠ .eval) (hi : s.phase ≠ .idle)
      (h : step s = .next t) (rest : Exchange n t wire u) : Exchange (n + 1) s (s.wireByte.toList ++ wire) u

theorem Exchange.trans {m n : Nat} {s t u : State} {w w' : List Byte} (h : Exchange m s w t) (h' : Exchange n t w' u) :
    Exchange (m + n) s (w ++ w') u := by
  induction h with
  | done s => rwa [Nat.zero_add]
  | cycle he hi hst _ ih =>
    rw [Nat.succ_add, List.append_assoc]
    exact .cycle he hi hst (ih h')

/-- A cycle that hands over no byte. -/
theorem Exchange.quietCycle {n : Nat} {s t u : State} {w : List Byte} (he : s.phase ≠ .eval) (hi : s.phase ≠ .idle)
    (hquiet : s.wireByte = none) (h : step s = .next t) (rest : Exchange n t w u) : Exchange (n + 1) s w u := by
  have hcycle := Exchange.cycle he hi h rest
  rwa [hquiet] at hcycle

theorem Exchange.reaches {n : Nat} {s t : State} {w : List Byte} (h : Exchange n s w t) : stepN n s = .next t := by
  induction h with
  | done s => rfl
  | cycle he hi hst _ ih => rw [stepN_succ hst, ih]

theorem Exchange.wireTrace {n : Nat} {s t : State} {w : List Byte} (h : Exchange n s w t) : wireTrace n s = w := by
  induction h with
  | done s => rfl
  | cycle he hi hst _ ih => rw [Claims.wireTrace, hst, ← ih]

theorem Exchange.running {n : Nat} {s t : State} {w : List Byte} (h : Exchange n s w t) :
    ∀ k < n, ∃ u, stepN k s = .next u ∧ u.phase ≠ .eval ∧ u.phase ≠ .idle := by
  induction h with
  | done s => exact nofun
  | @cycle n s t u w he hi hst _ ih =>
    intro k hk
    cases k with
    | zero => exact ⟨s, rfl, he, hi⟩
    | succ k =>
      obtain ⟨v, hv, hne⟩ := ih k (by omega)
      exact ⟨v, (stepN_succ hst k).trans hv, hne⟩

/-- The model's own record: the number of cycles run and the outputs of the last one. -/
def State.stamped (s : State) (c : Nat) (o : Outputs) : State := { s with cycle := c, out := o }

/-- An exchange from `s` to `t`, whatever the record at its start. -/
def Leads (n : Nat) (s : State) (wire : List Byte) (t : State) : Prop :=
  ∀ c o, ∃ c' o', Exchange n (s.stamped c o) wire (t.stamped c' o')

theorem Leads.refl (s : State) : Leads 0 s [] s := fun c o => ⟨c, o, .done _⟩

theorem Leads.trans {m n : Nat} {s t u : State} {w w' : List Byte} (h : Leads m s w t) (h' : Leads n t w' u) :
    Leads (m + n) s (w ++ w') u := by
  intro c o
  obtain ⟨c', o', h⟩ := h c o
  obtain ⟨c'', o'', h'⟩ := h' c' o'
  exact ⟨c'', o'', h.trans h'⟩

theorem Leads.cons {n : Nat} {s t u : State} {w w' : List Byte} (h : Leads 1 s w t) (h' : Leads n t w' u) :
    Leads (n + 1) s (w ++ w') u :=
  Nat.add_comm 1 n ▸ h.trans h'

/-- The lengths are within the buffers. -/
def State.fits (s : State) : Prop := s.txlen.toNat ≤ s.txbuf.length ∧ s.rxlen.toNat ≤ s.rxbuf.length

/-- A cycle without reset and without a host access, while a command runs, is one cycle of the phase table. -/
theorem step_of_quiet {s : State} {i : CycleIn} {l : List CycleIn} (hfit : s.fits) (hp : s.phase ≠ .idle)
    (hin : s.inputs = i :: l) (hr : i.rst = false) (hen : i.host.en = false) :
    step s = .next (s.closeCycle s.sequencerCycle) := by
  have hnow : s.now = i := by simp [State.now, hin]
  have hhost : s.hostPart = .next s := hostPart_of_no_write (.inl (hnow ▸ hen))
  have hwhole : s.now.host.whole = true := by simp [HostAccess.whole, hnow, hen]
  exact step_of_hostPart (hnow ▸ hr) hwhole hhost (sequencerPart_busy hp hfit.1 hfit.2 hhost)

/-! ### The bytes handed over -/

theorem wireByte_of_quiet {s : State} (hf : s.phase ≠ .txFirst) (hr : s.phase ≠ .txRest) : s.wireByte = none := by
  simp [State.wireByte, State.txValid, hf, hr]

/-- An offered byte that the transport takes is the one at the index (42_transceiver.md R200, R225). -/
theorem wireByte_of_taken {s : State} (hp : s.phase = .txFirst ∨ s.phase = .txRest) (hr : s.now.txReady = true)
    (he : s.now.txErr = false) (hk : s.txidx.toNat < s.txlen.toNat) :
    s.wireByte = some (s.txbuf.getD s.txidx.toNat 0) := by
  simp only [State.wireByte, s.txValid_iff.mpr hp, hr, he, Bool.not_false, Bool.and_self, if_true, State.outputs,
    State.txByte_of_lt hk]

/-! ### The transmit part with a ready transport -/

/-- `s` in phase `p` of the transmit part, with the counter at `n`, the transmit index at `k` and the inputs `l` to
come. -/
def State.sending (s : State) (p : Phase) (n : Nat) (k : BitVec 4) (l : List CycleIn) : State :=
  { s with phase := p, cnt := n, txidx := k, inputs := l }

section

variable {s : State} {l : List CycleIn}

/-- A cycle of the transmit part with a ready transport and no host access. -/
theorem leads_transmit {x : State} {w : List Byte} (hfit : s.fits) (ht : s.phase.transmitting = true)
    (hin : s.inputs = silentCycle :: l) (hx : s.transmitCycle silentCycle = x)
    (hw : ∀ c o, (s.stamped c o).wireByte.toList = w) : Leads 1 s w { x with inputs := l } := by
  intro c o
  have hne (p : Phase) (hp : p.transmitting = false) : s.phase ≠ p := fun e => by simp [e, hp] at ht
  have hnow : (s.stamped c o).now = silentCycle := by simp [State.now, State.stamped, hin]
  have hrow : (s.stamped c o).transmitCycle silentCycle = x.withHostSide (s.stamped c o) :=
    hx ▸ transmitCycle_withHostSide s (s.stamped c o) silentCycle
  have hframe : x = x.withHostSide s := hx ▸ transmitCycle_withHostSide s s silentCycle
  have hstep := step_of_quiet (s := s.stamped c o) hfit (hne _ rfl) hin rfl rfl
  rw [sequencerCycle_of_transmitting (s := s.stamped c o) ht, hnow, hrow] at hstep
  rw [hframe, ← hw c o, ← List.append_nil (Option.toList _)]
  refine ⟨c + 1, (s.stamped c o).outputs, .cycle (hne _ rfl) (hne _ rfl) ?_ (.done _)⟩
  rw [hstep, State.closeCycle, show (s.stamped c o).inputs = silentCycle :: l from hin]
  rfl

/-- The same between two phases of the transmit part. -/
theorem leads_sending {p p' : Phase} {n n' : Nat} {k k' : BitVec 4} {w : List Byte} (hfit : s.fits)
    (ht : p.transmitting = true)
    (hx : (s.sending p n k (silentCycle :: l)).transmitCycle silentCycle = s.sending p' n' k' (silentCycle :: l))
    (hw : ∀ c o, ((s.sending p n k (silentCycle :: l)).stamped c o).wireByte.toList = w) :
    Leads 1 (s.sending p n k (silentCycle :: l)) w (s.sending p' n' k' l) :=
  leads_transmit (s := s.sending p n k (silentCycle :: l)) hfit ht rfl hx hw

/-- A phase that offers no byte hands none over. -/
theorem leads_sending_quiet {p p' : Phase} {n n' : Nat} {k k' : BitVec 4} (hfit : s.fits) (ht : p.transmitting = true)
    (hf : p ≠ .txFirst) (hr : p ≠ .txRest)
    (hx : (s.sending p n k (silentCycle :: l)).transmitCycle silentCycle = s.sending p' n' k' (silentCycle :: l)) :
    Leads 1 (s.sending p n k (silentCycle :: l)) [] (s.sending p' n' k' l) :=
  leads_sending hfit ht hx fun _ _ => by rw [wireByte_of_quiet hf hr]; rfl

/-- A counted delay up to its last cycle (42_transceiver.md R224). -/
theorem leads_wait {p : Phase} {k : BitVec 4} (hfit : s.fits) (hp : p = .settle ∨ p = .gap ∨ p = .postwrite) (n : Nat) :
    Leads n (s.sending p (n + 1) k (List.replicate n silentCycle ++ l)) [] (s.sending p 1 k l) := by
  induction n with
  | zero => exact .refl _
  | succ n ih =>
    have hfirst : Leads 1 (s.sending p (n + 2) k (List.replicate (n + 1) silentCycle ++ l)) []
        (s.sending p (n + 1) k (List.replicate n silentCycle ++ l)) := by
      refine leads_sending_quiet hfit (transmitting_of_delay hp) ?_ ?_ ?_
      · rintro rfl; simp at hp
      · rintro rfl; simp at hp
      · exact transmitCycle_counting (s := s.sending p (n + 2) k _) hp (Nat.lt_add_left n one_lt_two) _
    exact hfirst.cons ih

theorem replicate_append_cons (n : Nat) (i : CycleIn) (l : List CycleIn) :
    List.replicate (n + 1) i ++ l = List.replicate n i ++ i :: l := by
  rw [List.replicate_succ', List.append_assoc]
  rfl

/-- SETTLE lasts as many cycles as it was entered with (42_transceiver.md R207). -/
theorem leads_settle {n : Nat} (hfit : s.fits) (hn : 1 ≤ n) (k : BitVec 4) :
    Leads n (s.sending .settle n k (List.replicate n silentCycle ++ l)) [] (s.sending .txFirst 1 0 l) := by
  obtain ⟨n, rfl⟩ := Nat.exists_eq_add_of_le' hn
  rw [replicate_append_cons]
  refine (leads_wait hfit (.inl rfl) n).trans (w' := []) (leads_sending_quiet hfit rfl nofun nofun ?_)
  rw [transmitCycle_settle rfl, countdown_over le_rfl]
  rfl

/-- GAP lasts as many cycles as it was entered with (42_transceiver.md R210). -/
theorem leads_gap {n : Nat} (hfit : s.fits) (hn : 1 ≤ n) (k : BitVec 4) :
    Leads n (s.sending .gap n k (List.replicate n silentCycle ++ l)) [] (s.sending .txRest 1 k l) := by
  obtain ⟨n, rfl⟩ := Nat.exists_eq_add_of_le' hn
  rw [replicate_append_cons]
  refine (leads_wait hfit (.inr (.inl rfl)) n).trans (w' := []) (leads_sending_quiet hfit rfl nofun nofun ?_)
  rw [transmitCycle_gap rfl, countdown_over le_rfl]
  rfl

/-- POSTWRITE lasts as many cycles as it was entered with, and then turns the lines round (42_transceiver.md R213). -/
theorem leads_postwrite {n : Nat} (hfit : s.fits) (hn : 1 ≤ n) (k : BitVec 4) :
    Leads n (s.sending .postwrite n k (List.replicate n silentCycle ++ l)) []
      (s.sending .postwrite 1 k l).enterReceive := by
  obtain ⟨n, rfl⟩ := Nat.exists_eq_add_of_le' hn
  rw [replicate_append_cons]
  refine (leads_wait hfit (.inr (.inr rfl)) n).trans (w' := [])
    (leads_transmit (s := s.sending .postwrite 1 k (silentCycle :: l))
      (x := (s.sending .postwrite 1 k (silentCycle :: l)).enterReceive) hfit rfl rfl ?_ fun _ _ => ?_)
  · rw [transmitCycle_postwrite rfl, countdown_over le_rfl]
  · rw [wireByte_of_quiet] <;> simp [State.sending, State.stamped]

/-- FLUSH1 lasts one cycle (42_transceiver.md R209). -/
theorem leads_flush1 (hfit : s.fits) (n : Nat) (k : BitVec 4) :
    Leads 1 (s.sending .flush1 n k (silentCycle :: l)) [] (s.sending .gap (s.par.nGap s.variant) k l) :=
  leads_sending_quiet hfit rfl nofun nofun (transmitCycle_flush1 rfl rfl)

/-- FLUSH2 lasts one cycle (42_transceiver.md R212). -/
theorem leads_flush2 (hfit : s.fits) (n : Nat) (k : BitVec 4) :
    Leads 1 (s.sending .flush2 n k (silentCycle :: l)) [] (s.sending .postwrite (s.par.nPost s.variant) k l) :=
  leads_sending_quiet hfit rfl nofun nofun (transmitCycle_flush2 rfl rfl)

theorem requestBytes_drop {k : Nat} (hfit : s.fits) (hk : k < s.txlen.toNat) :
    s.requestBytes.drop k = s.txbuf.getD k 0 :: s.requestBytes.drop (k + 1) := by
  have hbuf : k < s.txbuf.length := hk.trans_le hfit.1
  have hlen : k < s.requestBytes.length := by simp [State.requestBytes, hk, hbuf]
  rw [List.drop_eq_getElem_cons hlen, List.getD_eq_getElem _ _ hbuf]
  simp [State.requestBytes]

/-- TX_FIRST hands over byte 0 in one cycle (42_transceiver.md R208). -/
theorem leads_txFirst (hfit : s.fits) (hlen : 0 < s.txlen.toNat) (n : Nat) :
    Leads 1 (s.sending .txFirst n 0 (silentCycle :: l)) [s.txbuf.getD 0 0] (s.sending .flush1 n 1 l) := by
  refine leads_sending hfit rfl (transmitCycle_txFirst rfl rfl) fun c o => ?_
  rw [wireByte_of_taken (s := (s.sending .txFirst n 0 _).stamped c o) (.inl rfl) rfl rfl hlen]
  rfl

/-- TX_REST hands over the bytes from the index on, one a cycle (42_transceiver.md R211). -/
theorem leads_txRest (hfit : s.fits) (hmax : s.txlen.toNat ≤ 16) (n m : Nat) :
    ∀ k : BitVec 4, k.toNat + m + 1 = s.txlen.toNat →
      Leads (m + 1) (s.sending .txRest n k (List.replicate (m + 1) silentCycle ++ l)) (s.requestBytes.drop k.toNat)
        (s.sending .flush2 n (BitVec.ofNat 4 (s.txlen.toNat - 1)) l) := by
  have hbyte (k : BitVec 4) (hk : k.toNat < s.txlen.toNat) (l : List CycleIn) (c : Nat) (o : Outputs) :
      ((s.sending .txRest n k (silentCycle :: l)).stamped c o).wireByte.toList = [s.txbuf.getD k.toNat 0] := by
    rw [wireByte_of_taken (.inr rfl) rfl rfl hk]
    rfl
  induction m with
  | zero =>
    intro k hk
    have hlast : s.requestBytes.drop (k.toNat + 1) = [] := by simp [State.requestBytes]; omega
    have hidx : BitVec.ofNat 4 (s.txlen.toNat - 1) = k := by bv_omega
    rw [requestBytes_drop hfit (by omega), hlast, hidx]
    exact leads_sending hfit rfl (transmitCycle_lastByte rfl rfl rfl hk) (hbyte k (by omega) l)
  | succ m ih =>
    intro k hk
    have hsucc : (k + 1).toNat = k.toNat + 1 := by bv_omega
    have hfirst : Leads 1 (s.sending .txRest n k (List.replicate (m + 2) silentCycle ++ l)) [s.txbuf.getD k.toNat 0]
        (s.sending .txRest n (k + 1) (List.replicate (m + 1) silentCycle ++ l)) :=
      leads_sending hfit rfl
        (transmitCycle_nextByte (s := s.sending .txRest n k _) rfl rfl rfl (show k.toNat + 1 < s.txlen.toNat by omega))
        (hbyte k (by omega) _)
    rw [requestBytes_drop hfit (by omega), ← hsucc]
    exact hfirst.cons (ih (k + 1) (by omega))

/-- The transmit part with an always ready transport: the whole request in its number of cycles, and then RECEIVE
(42_transceiver.md R222). -/
theorem leads_request (hfit : s.fits) (hmin : 2 ≤ s.txlen.toNat) (hmax : s.txlen.toNat ≤ 16) (k : BitVec 4) {d : Nat}
    (hd : d = s.par.nSettle s.variant + s.par.nGap s.variant + s.par.nPost s.variant + s.txlen.toNat + 2) :
    Leads d (s.sending .settle (s.par.nSettle s.variant) k (List.replicate d silentCycle ++ l)) s.requestBytes
      (s.sending .postwrite 1 (BitVec.ofNat 4 (s.txlen.toNat - 1)) l).enterReceive := by
  obtain ⟨hsettle, hgap, hpost⟩ := one_le_delays s.par s.variant
  obtain ⟨m, hm⟩ := Nat.exists_eq_add_of_le' hmin
  have hfinish := (leads_flush2 hfit 1 (BitVec.ofNat 4 (s.txlen.toNat - 1))).trans (leads_postwrite (l := l) hfit hpost _)
  have hrest := (leads_txRest hfit hmax 1 m 1#4 (by simp; omega)).trans hfinish
  have hgaps := (leads_flush1 hfit 1 1).trans ((leads_gap hfit hgap 1).trans hrest)
  have hall := (leads_settle hfit hsettle k).trans ((leads_txFirst hfit (by omega) 1).trans hgaps)
  have hwire : s.requestBytes = [s.txbuf.getD 0 0] ++ s.requestBytes.drop (1#4).toNat :=
    requestBytes_drop (k := 0) hfit (by omega)
  have hsum : d = s.par.nSettle s.variant
      + (1 + (1 + (s.par.nGap s.variant + (m + 1 + (1 + s.par.nPost s.variant))))) := by omega
  rw [hsum, hwire]
  simpa only [List.replicate_add, List.replicate_one, List.append_assoc, List.cons_append, List.nil_append,
    List.append_nil] using hall

end

/-! ### A prompt device -/

/-- `t` is in EVAL with the bytes `bs` received after those of `s`, and the inputs `l` to come. -/
structure Received (s : State) (bs : List Byte) (l : List CycleIn) (t : State) : Prop where
  phase : t.phase = .eval
  cause : t.cause = s.cause
  bytes : t.responseBytes = s.responseBytes ++ bs
  de : t.de = s.de
  re : t.re = s.re
  attempt : t.attempt = s.attempt
  inputs : t.inputs = l

/-- A stored byte follows the bytes received before it (42_transceiver.md R214). -/
theorem storeByte_responseBytes {s : State} (b : Byte) (hroom : s.rxlen.toNat < s.rxbuf.length)
    (hlen : (s.rxlen + 1).toNat = s.rxlen.toNat + 1) :
    (s.storeByte b).responseBytes = s.responseBytes ++ [b] := by
  simp only [State.responseBytes, State.storeByte_rxbuf, State.storeByte_rxlen, hlen]
  rw [List.take_add_one, List.take_set_of_le le_rfl]
  simp [hroom]

/-- A cycle of RECEIVE that delivers a byte of a fixed-length response. -/
theorem step_of_delivered {s : State} {b : Byte} {l : List CycleIn} (hfit : s.fits) (hp : s.phase = .receive)
    (hfix : s.explen ≠ 0) (hin : s.inputs = deliver b :: l) :
    step s = .next (s.closeCycle (s.receiveFixed b)) := by
  have hnow : s.now = deliver b := by simp [State.now, hin]
  rw [step_of_quiet hfit (by simp [hp]) hin rfl rfl, sequencerCycle_of_receive hp, hnow,
    receiveCycle_fixed rfl rfl hfix]
  rfl

/-- A device that delivers the rest of its response, one byte a cycle, ends the phase with its last byte
(42_transceiver.md R214, R222). -/
theorem exchange_receive (bs : List Byte) : ∀ {s : State} {l : List CycleIn}, s.fits → s.phase = .receive → bs ≠ [] →
    s.rxlen.toNat + bs.length = s.explen.toNat → s.explen.toNat ≤ s.rxbuf.length → bs.length ≤ s.cnt →
    s.inputs = bs.map deliver ++ l → ∃ t, Exchange bs.length s [] t ∧ Received s bs l t := by
  induction bs with
  | nil => exact fun _ _ h => absurd rfl h
  | cons b bs ih =>
    intro s l hfit hp _ hlen hroom hcnt hin
    rw [List.length_cons] at hlen hcnt
    have hfix : s.explen ≠ 0 := by rintro e; simp [e] at hlen
    have hsucc : (s.rxlen + 1).toNat = s.rxlen.toNat + 1 := by bv_omega
    have hbytes := storeByte_responseBytes b (by omega) hsucc
    have hstep := step_of_delivered hfit hp hfix hin
    have hquiet : s.wireByte = none := wireByte_of_quiet (by simp [hp]) (by simp [hp])
    have htail : s.inputs.tail = bs.map deliver ++ l := by rw [hin]; rfl
    by_cases hlast : bs = []
    · subst hlast
      rw [receiveFixed_last (by simp at hlen; bv_omega)] at hstep
      refine ⟨s.closeCycle (s.storeByte b).endResponse, ?_, rfl, rfl, hbytes, rfl, rfl, rfl, htail⟩
      exact .quietCycle (by simp [hp]) (by simp [hp]) hquiet hstep (.done _)
    · have hpos : 0 < bs.length := List.length_pos_iff.mpr hlast
      rw [receiveFixed_more (by bv_omega), timeoutCycle_running (s := s.storeByte b) (show 1 < s.cnt by omega)] at hstep
      have hset : (s.rxbuf.set s.rxlen.toNat b).length = s.rxbuf.length := List.length_set ..
      have hnext : (s.rxlen + 1).toNat + bs.length = s.explen.toNat := by omega
      obtain ⟨t, ht, hrec⟩ := ih (s := s.closeCycle { s.storeByte b with cnt := s.cnt - 1 }) (l := l)
        ⟨hfit.1, show (s.rxlen + 1).toNat ≤ (s.rxbuf.set s.rxlen.toNat b).length by omega⟩ hp hlast hnext
        (show s.explen.toNat ≤ (s.rxbuf.set s.rxlen.toNat b).length by omega) (Nat.le_sub_one_of_lt hcnt) htail
      refine ⟨t, .quietCycle (by simp [hp]) (by simp [hp]) hquiet hstep ht, { hrec with bytes := ?_ }⟩
      calc t.responseBytes = (s.storeByte b).responseBytes ++ bs := hrec.bytes
        _ = s.responseBytes ++ b :: bs := by rw [hbytes, List.append_assoc]; rfl

/-- Settles O59: the request in the cycles of the transmit part, and then the response in RECEIVE. -/
theorem idealExchangeDuration : Obligations.IdealExchangeDuration := by
  intro s op resp rest hreq hbuf hcounter hp hc hop hascii hlen htimeout hin d
  obtain ⟨op', hop', hframe, htxlen, hexplen, hvar, -⟩ := hreq (by simp [hp])
  obtain rfl : op' = op := Option.some.inj (hop'.symm.trans hop)
  have hfit : s.fits := ⟨hbuf.tx_size ▸ hbuf.txlen_fits, hbuf.rx_size ▸ hbuf.rxlen_fits⟩
  have hd : transmitCycles s.par op'
      = s.par.nSettle s.variant + s.par.nGap s.variant + s.par.nPost s.variant + s.txlen.toNat + 2 := by
    rw [transmitCycles, htxlen, hvar, if_neg hascii, if_neg hascii]
    rfl
  have hstart : (s.sending .settle (s.par.nSettle s.variant) s.txidx
      (List.replicate (transmitCycles s.par op') silentCycle ++ (resp.map deliver ++ rest))).stamped s.cycle s.out = s := by
    rw [← List.append_assoc, ← hin, ← hc, ← hp]
    rfl
  obtain ⟨c, o, hsend⟩ := leads_request (l := resp.map deliver ++ rest) hfit (hcounter.length_pos (by simp [hp]))
    hbuf.txlen_fits s.txidx hd s.cycle s.out
  rw [hstart] at hsend
  have hexp : s.explen.toNat = resp.length := by rw [hexplen, hlen]
  have hsome : resp ≠ [] := by
    rintro rfl
    cases op' <;> simp [responseLength] at hlen hascii
  have hroom : s.explen.toNat ≤ s.rxbuf.length := by
    have hfits := hbuf.explen_fits
    have hsize := hbuf.size_bounds
    have hrx := hbuf.rx_size
    omega
  obtain ⟨t, hrecv, hrec⟩ := exchange_receive resp (l := rest)
    (s := (s.sending .postwrite 1 (BitVec.ofNat 4 (s.txlen.toNat - 1)) (resp.map deliver ++ rest)).enterReceive.stamped
      c o)
    ⟨hfit.1, Nat.zero_le _⟩ rfl hsome ((Nat.zero_add _).trans hexp.symm) hroom htimeout rfl
  have hall := hsend.trans hrecv
  refine ⟨⟨t, hall.reaches, hrec.phase, hrec.cause, hrec.bytes, hrec.de, hrec.re, hrec.attempt, hrec.inputs⟩, ?_,
    hall.running⟩
  rw [hall.wireTrace, List.append_nil, hframe]

end Sys2Proof.Machine

/-! ## The request and the attempts of a running command

A cycle of an exchange leaves the request and the attempt counter, EVAL leaves the request and may count one attempt
on, and only reset and the acceptance of a command do anything else (43_retry.md R253, R258, R260). -/

namespace Sys2Proof.Machine

/-- What `State.RequestInv` speaks of: the parameters, the latched operands, and the request made from them. -/
def State.request (s : State) := (s.par, s.op, s.addr, s.value, s.txbuf, s.txlen, s.explen, s.variant, s.baudSel)

/-- The attempt counter and its latched bound. -/
def State.attempts (s : State) := (s.attempt, s.maxatt)

/-! ### What a row of the phase table leaves -/

theorem transmitCycle_request_attempts (s : State) (i : CycleIn) :
    (s.transmitCycle i).request = s.request ∧ (s.transmitCycle i).attempts = s.attempts := by
  rcases transmitCycle_cases s i with
    e | ⟨-, e⟩ | ⟨-, -, e⟩ | ⟨-, -, e⟩ | ⟨-, -, -, e⟩ | ⟨-, -, -, e⟩ | ⟨-, -, e⟩ | ⟨-, -, -, -, e⟩ | ⟨-, -, -, -, e⟩
      | ⟨-, -, -, e⟩ | ⟨-, -, e⟩ <;> rw [e] <;> exact ⟨rfl, rfl⟩

theorem receiveCycle_request_attempts (s : State) (i : CycleIn) :
    (s.receiveCycle i).request = s.request ∧ (s.receiveCycle i).attempts = s.attempts := by
  rcases receiveCycle_cases s i with ⟨-, e⟩ | ⟨u, hu, e⟩
  · rw [e]
    exact ⟨rfl, rfl⟩
  have hstore : u.request = s.request ∧ u.attempts = s.attempts := by
    rcases hu with ⟨-, rfl⟩ | ⟨-, rfl | rfl⟩ <;> exact ⟨rfl, rfl⟩
  rcases e with ⟨-, e⟩ | ⟨-, e⟩ | ⟨-, e⟩ <;> rw [e] <;> exact hstore

/-- A failed attempt is followed by the next one, or the command ends with its count (43_retry.md R257, R259). -/
theorem failAttempt_request_attempts (s : State) (c : Code) :
    (s.failAttempt c).request = s.request
      ∧ ((s.failAttempt c).attempts = s.attempts
        ∨ (s.attempt.toNat < s.maxatt.toNat ∧ (s.failAttempt c).attempts = (s.attempt + 1, s.maxatt))) := by
  rcases failAttempt_cases s c with ⟨hlt, e⟩ | ⟨-, e⟩ <;> rw [e]
  · exact ⟨by simp [State.request], .inr ⟨hlt, by simp [State.attempts]⟩⟩
  · exact ⟨by simp [State.request], .inl (by simp [State.attempts])⟩

/-- EVAL never touches the request, and counts an attempt only below the bound (43_retry.md R258, R259). -/
theorem evalCycle_request_attempts (s : State) (v : Verdict) :
    (s.evalCycle v).request = s.request
      ∧ ((s.evalCycle v).attempts = s.attempts
        ∨ (s.attempt.toNat < s.maxatt.toNat ∧ (s.evalCycle v).attempts = (s.attempt + 1, s.maxatt))) := by
  rcases evalCycle_cases s v with ⟨code, a, b, -, -, e⟩ | ⟨c, -, -, e⟩ | ⟨-, e⟩ <;> rw [e]
  · exact ⟨rfl, .inl rfl⟩
  · exact failAttempt_request_attempts s c
  · exact failAttempt_request_attempts s s.cause

theorem Sequenced.busy {u v : State} (h : Sequenced u v) : u.phase ≠ .idle := by
  intro hidle
  cases h with
  | transmit hp => simp [hidle, Phase.transmitting] at hp
  | receive hp => simp [hidle] at hp
  | judge _ _ hp => simp [hidle] at hp
  | noCommand hp => simp [hidle] at hp

/-- No row of the phase table touches the request, as long as TXLEN is within TXBUF (43_retry.md R258). -/
theorem Sequenced.request {u v : State} (h : Sequenced u v) (hfit : u.txlen.toNat ≤ u.txbuf.length) :
    v.request = u.request := by
  cases h with
  | transmit hp hw =>
    rw [loadRequest_requestBytes hfit, or_self] at hw
    rw [hw]
    exact (transmitCycle_request_attempts u _).1
  | receive hp => exact (receiveCycle_request_attempts u _).1
  | judge op v hp hop hw => rcases hw with rfl | rfl <;> exact (evalCycle_request_attempts _ v).1
  | noCommand hp hop => rfl

/-- A row of the phase table leaves the attempt counter, or counts one attempt below the bound (43_retry.md R260). -/
theorem Sequenced.attempts {u v : State} (h : Sequenced u v) :
    v.attempts = u.attempts ∨ (u.attempt.toNat < u.maxatt.toNat ∧ v.attempts = (u.attempt + 1, u.maxatt)) := by
  cases h with
  | transmit hp hw =>
    refine .inl ?_
    rcases hw with rfl | rfl <;> exact (transmitCycle_request_attempts _ _).2
  | receive hp => exact .inl (receiveCycle_request_attempts u _).2
  | judge op v hp hop hw => rcases hw with rfl | rfl <;> exact (evalCycle_request_attempts _ v).2
  | noCommand hp hop => exact .inl rfl

/-! ### The request -/

/-- The invariant looks at the request alone, and only while a command runs. -/
theorem State.RequestInv.of_request_eq {s t : State} (h : s.RequestInv) (hp : t.phase ≠ .idle → s.phase ≠ .idle)
    (hreq : t.request = s.request) : t.RequestInv := by
  intro ht
  simp only [State.request, Prod.mk.injEq] at hreq
  obtain ⟨hpar, hop, haddr, hvalue, htxbuf, htxlen, hexplen, hvar, hbaud⟩ := hreq
  rw [State.requestBytes, hpar, hop, haddr, hvalue, htxbuf, htxlen, hexplen, hvar, hbaud]
  exact h (hp ht)

theorem State.RequestInv.of_idle {t : State} (hp : t.phase = .idle) : t.RequestInv := absurd hp

/-- TXBUF holds the whole request. -/
theorem State.RequestInv.txlen_le {s : State} (h : s.RequestInv) (hp : s.phase ≠ .idle) :
    s.txlen.toNat ≤ s.txbuf.length := by
  obtain ⟨op, -, hframe, htxlen, -⟩ := h hp
  have hlen : min s.txlen.toNat s.txbuf.length = if op = .asciiRead then 16 else 8 := by
    rw [← List.length_take, ← State.requestBytes, hframe, requestFrame_length]
  have hsame : s.txlen.toNat = if op = .asciiRead then 16 else 8 := by rw [htxlen]; split <;> rfl
  omega

theorem State.RequestInv.sequenced {u v : State} (h : u.RequestInv) (hv : Sequenced u v) : v.RequestInv :=
  h.of_request_eq (fun _ => hv.busy) (hv.request (h.txlen_le hv.busy))

/-- A transaction starts with the request of the operands it latches (44_commands.md R280). -/
theorem startTransaction_requestInv {a : State} {op : TransOp} (hop : a.op = op.code) :
    (a.startTransaction op).RequestInv := by
  intro _
  have hlen : (a.startTransaction op).txlen.toNat = (requestFrame a.par op a.addr a.value).length := by
    rw [State.startTransaction_txlen, requestFrame_txlen, requestFrame_length]
  refine ⟨op, (congrArg TransOp.ofCode hop).trans (ofCode_code op), ?_, ?_, rfl, rfl, ?_⟩
  · rw [State.requestBytes, hlen]
    exact loadPrefix_take_length ..
  · rw [State.startTransaction_txlen, requestFrame_length]
    split <;> rfl
  · cases op <;> rfl

theorem Accepted.requestInv {a t : State} (h : Accepted a t) : t.RequestInv := by
  cases h with
  | crcInit => exact .of_idle rfl
  | crcByte => exact .of_idle rfl
  | refused c hc => exact .of_idle rfl
  | started op hop hr hm => exact startTransaction_requestInv hop

/-- Settles O45: reset goes idle, an accepted transaction starts with the request of its operands, and no row of the
phase table touches it. -/
theorem stepKeepsRequest : Obligations.StepKeepsRequest := by
  intro s t h hst
  exact step_keeps h hst (fun _ _ ha => ha.of_request_eq id rfl) (.of_idle rfl) (fun _ _ _ ha => ha.requestInv)
    (fun _ _ hu hv => hu.sequenced hv)

/-! ### The attempts -/

/-- The invariant looks at the attempts alone, and at whether a command runs. -/
theorem State.AttemptInv.of_attempts_eq {s t : State} (h : s.AttemptInv) (hp : t.phase ≠ .idle → s.phase ≠ .idle)
    (hatt : t.attempts = s.attempts) : t.AttemptInv := by
  simp only [State.attempts, Prod.mk.injEq] at hatt
  obtain ⟨hattempt, hmaxatt⟩ := hatt
  constructor
  · rw [hattempt, hmaxatt]
    exact h.bounded
  · rw [hattempt]
    exact fun ht => h.started (hp ht)

/-- No attempt is made while idle. -/
theorem State.AttemptInv.of_none {t : State} (hattempt : t.attempt = 0) (hp : t.phase = .idle) : t.AttemptInv where
  bounded := by simp [hattempt]
  started := absurd hp

/-- One more attempt below the bound. -/
theorem State.AttemptInv.of_next {s t : State} (hlt : s.attempt.toNat < s.maxatt.toNat)
    (hatt : t.attempts = (s.attempt + 1, s.maxatt)) : t.AttemptInv := by
  simp only [State.attempts, Prod.mk.injEq] at hatt
  obtain ⟨hattempt, hmaxatt⟩ := hatt
  have hsucc : t.attempt.toNat = s.attempt.toNat + 1 := by rw [hattempt]; bv_omega
  constructor
  · rw [hsucc, hmaxatt]
    exact hlt
  · omega

theorem State.AttemptInv.sequenced {u v : State} (h : u.AttemptInv) (hv : Sequenced u v) : v.AttemptInv := by
  rcases hv.attempts with e | ⟨hlt, e⟩
  · exact h.of_attempts_eq (fun _ => hv.busy) e
  · exact .of_next hlt e

/-- A command that finishes at its acceptance makes no attempt, and a transaction begins its first one under a bound
that is not 0 (43_retry.md R260, 44_commands.md R280). -/
theorem Accepted.attemptInv {a t : State} (h : Accepted a t) (hattempt : a.attempt = 0) : t.AttemptInv := by
  cases h with
  | crcInit => exact .of_none hattempt rfl
  | crcByte => exact .of_none hattempt rfl
  | refused c hc => exact .of_none hattempt rfl
  | started op hop hr hm => exact .of_next (s := a) (by bv_omega) (by rw [hattempt]; rfl)

/-- Settles O44: reset and acceptance begin the count, and every row of the phase table keeps it or goes one on below
the bound. -/
theorem stepKeepsAttempts : Obligations.StepKeepsAttempts := by
  intro s t h hst
  exact step_keeps h hst (fun _ _ ha => ha.of_attempts_eq id rfl) (.of_none rfl rfl)
    (fun _ _ _ ha => ha.attemptInv rfl) (fun _ _ hu hv => hu.sequenced hv)

end Sys2Proof.Machine

/-! ## A silent device

43_retry.md R255: an attempt without a reply runs into the receive timeout, and fails in EVAL with SHORT_READ. -/

namespace Sys2Proof.Machine

open Sys2Proof.Claims

/-! ### Runs of a running command -/

/-- `n` steps lead from `s` to `t`, and the command runs before each of them. -/
structure BusyRun (n : Nat) (s t : State) : Prop where
  reaches : stepN n s = .next t
  running : ∀ k < n, ∃ u, stepN k s = .next u ∧ u.phase ≠ .idle

theorem stepN_add {m : Nat} : ∀ {s t : State}, stepN m s = .next t → ∀ n, stepN (m + n) s = stepN n t := by
  induction m with
  | zero =>
    intro s t h n
    cases h
    rw [Nat.zero_add]
  | succ m ih =>
    intro s t h n
    cases e : step s with
    | next u =>
      rw [stepN_succ e] at h
      rw [Nat.succ_add, stepN_succ e, ih h]
    | fault r =>
      rw [stepN, e] at h
      cases h
    | refused r =>
      rw [stepN, e] at h
      cases h

theorem BusyRun.trans {m n : Nat} {s t u : State} (h : BusyRun m s t) (h' : BusyRun n t u) : BusyRun (m + n) s u where
  reaches := (stepN_add h.reaches n).trans h'.reaches
  running k hk := by
    by_cases hkm : k < m
    · exact h.running k hkm
    · obtain ⟨j, rfl⟩ := Nat.exists_eq_add_of_le (Nat.le_of_not_lt hkm)
      rw [stepN_add h.reaches]
      exact h'.running j (by omega)

theorem BusyRun.single {s t : State} (hp : s.phase ≠ .idle) (h : step s = .next t) : BusyRun 1 s t where
  reaches := stepN_succ h 0
  running k hk := by
    obtain rfl : k = 0 := by omega
    exact ⟨s, rfl, hp⟩

theorem Exchange.busyRun {n : Nat} {s t : State} {w : List Byte} (h : Exchange n s w t) : BusyRun n s t where
  reaches := h.reaches
  running k hk := by
    obtain ⟨u, hu, -, hp⟩ := h.running k hk
    exact ⟨u, hu, hp⟩

/-! ### One attempt -/

section

variable {s : State} {l : List CycleIn}

/-- A cycle of RECEIVE in which nothing arrives is the timeout's part of it (42_transceiver.md R216). -/
theorem leads_silent {x : State} (hfit : s.fits) (hp : s.phase = .receive) (hin : s.inputs = silentCycle :: l)
    (hx : s.timeoutCycle = x) : Leads 1 s [] { x with inputs := l } := by
  intro c o
  have hnow : (s.stamped c o).now = silentCycle := by simp [State.now, State.stamped, hin]
  have hrow : (s.stamped c o).timeoutCycle = x.withHostSide (s.stamped c o) :=
    hx ▸ timeoutCycle_withHostSide s (s.stamped c o)
  have hframe : x = x.withHostSide s := hx ▸ timeoutCycle_withHostSide s s
  have hbusy : s.phase ≠ .idle ∧ s.phase ≠ .eval ∧ s.phase ≠ .txFirst ∧ s.phase ≠ .txRest := by simp [hp]
  obtain ⟨hidle, heval, hfirst, hrest⟩ := hbusy
  have hstep := step_of_quiet (s := s.stamped c o) hfit hidle hin rfl rfl
  rw [sequencerCycle_of_receive (s := s.stamped c o) hp, hnow, receiveCycle_silent rfl rfl, hrow] at hstep
  rw [hframe]
  refine ⟨c + 1, (s.stamped c o).outputs,
    .quietCycle heval hidle (wireByte_of_quiet (s := s.stamped c o) hfirst hrest) ?_ (.done _)⟩
  rw [hstep, State.closeCycle, show (s.stamped c o).inputs = silentCycle :: l from hin]
  rfl

/-- With a silent device RECEIVE lasts as many cycles as it was entered with, and ends in SHORT_READ
(42_transceiver.md R216). -/
theorem leads_timeout {n : Nat} (hfit : s.fits) (hn : 1 ≤ n) (k : BitVec 4) :
    Leads n (s.sending .receive n k (List.replicate n silentCycle ++ l)) []
      ((s.sending .receive 1 k l).endReceive .shortRead) := by
  induction n, hn using Nat.le_induction with
  | base => exact leads_silent (s := s.sending .receive 1 k (silentCycle :: l)) hfit rfl rfl (timeoutCycle_over le_rfl)
  | succ n hn ih =>
    exact (leads_silent (s := s.sending .receive (n + 1) k (silentCycle :: (List.replicate n silentCycle ++ l))) hfit rfl
      rfl (timeoutCycle_running (Nat.lt_add_of_pos_left hn))).cons ih

/-- `s` in EVAL after an exchange in which no byte was received, with the inputs `l` to come. -/
def State.unanswered (s : State) (l : List CycleIn) : State :=
  (s.enterReceive.sending .receive 1 (BitVec.ofNat 4 (s.txlen.toNat - 1)) l).endReceive .shortRead

/-- The cycles of an attempt without a reply: the transmit part, the receive timeout and one EVAL cycle. -/
def State.attemptCycles (s : State) : Nat :=
  s.par.nSettle s.variant + s.par.nGap s.variant + s.par.nPost s.variant + s.txlen.toNat + 2 + s.par.rxTimeout + 1

/-- An attempt of a transaction command begins (43_retry.md R253). -/
structure State.AtAttempt (s : State) : Prop where
  phase : s.phase = .settle
  cnt : s.cnt = s.par.nSettle s.variant
  command : ∃ op, TransOp.ofCode s.op = some op
  fits : s.fits
  length_pos : 2 ≤ s.txlen.toNat
  txlen_fits : s.txlen.toNat ≤ 16
  timeout_pos : 1 ≤ s.par.rxTimeout

/-- The exchange of an attempt without a reply. -/
theorem State.AtAttempt.leads_unanswered (h : s.AtAttempt) {n : Nat} (hn : n + 1 = s.attemptCycles)
    (hin : s.inputs = List.replicate n silentCycle ++ l) : Leads n s s.requestBytes (s.unanswered l) := by
  obtain ⟨d, hd⟩ : ∃ d, d = s.par.nSettle s.variant + s.par.nGap s.variant + s.par.nPost s.variant + s.txlen.toNat + 2 :=
    ⟨_, rfl⟩
  obtain rfl : n = d + s.par.rxTimeout := by simp only [State.attemptCycles] at hn; omega
  have hstart : s.sending .settle (s.par.nSettle s.variant) s.txidx
      (List.replicate d silentCycle ++ (List.replicate s.par.rxTimeout silentCycle ++ l)) = s := by
    rw [← List.append_assoc, ← List.replicate_add, ← hin, ← h.cnt, ← h.phase]
    rfl
  have hsend := leads_request (l := List.replicate s.par.rxTimeout silentCycle ++ l) h.fits h.length_pos h.txlen_fits
    s.txidx hd
  rw [hstart] at hsend
  have hwait := leads_timeout (s := s.enterReceive) (l := l) ⟨h.fits.1, Nat.zero_le _⟩ h.timeout_pos
    (BitVec.ofNat 4 (s.txlen.toNat - 1))
  rw [← List.append_nil s.requestBytes]
  exact hsend.trans hwait

/-- A cause recorded by the exchange fails the attempt in EVAL, whatever RXBUF holds (43_retry.md R259). -/
theorem step_of_failed {i : CycleIn} (hfit : s.fits) (hp : s.phase = .eval) (hc : s.cause ≠ .ok)
    (hop : ∃ op, TransOp.ofCode s.op = some op) (hin : s.inputs = i :: l) (hr : i.rst = false)
    (hen : i.host.en = false) : step s = .next (s.closeCycle (s.failAttempt s.cause)) := by
  obtain ⟨op, hop⟩ := hop
  rw [step_of_quiet hfit (by simp [hp]) hin hr hen, sequencerCycle_of_eval hp, evalBuffer_of_some hop,
    evalCycle_fail hc]

/-- `b` is the EVAL cycle of an attempt of `s` without a reply, with the inputs `l` to come after it. -/
structure Unanswered (s : State) (l : List CycleIn) (b : State) : Prop where
  request : b.request = s.request
  attempt : b.attempt = s.attempt
  maxatt : b.maxatt = s.maxatt
  irqStatus : b.irqStatus = s.irqStatus
  rxlen : b.rxlen = 0
  inputs : b.inputs.tail = l

/-- An attempt without a reply fails with SHORT_READ, in its number of cycles. -/
theorem State.AtAttempt.fails (h : s.AtAttempt) (hin : s.inputs = List.replicate s.attemptCycles silentCycle ++ l) :
    ∃ b, Unanswered s l b ∧ BusyRun s.attemptCycles s (b.closeCycle (b.failAttempt .shortRead)) := by
  obtain ⟨n, hn⟩ : ∃ n, n + 1 = s.attemptCycles := ⟨_, rfl⟩
  rw [← hn, replicate_append_cons] at hin
  obtain ⟨c, o, hrun⟩ := h.leads_unanswered hn hin s.cycle s.out
  refine ⟨(s.unanswered (silentCycle :: l)).stamped c o, ⟨rfl, rfl, rfl, rfl, rfl, rfl⟩,
    hn ▸ hrun.busyRun.trans (.single nofun ?_)⟩
  exact step_of_failed (s := (s.unanswered (silentCycle :: l)).stamped c o) ⟨h.fits.1, Nat.zero_le _⟩ rfl nofun h.command
    rfl rfl rfl

end

/-! ### All attempts -/

/-- The command that runs in `s` has ended in `t` without a reply in its last attempt (43_retry.md R255, R257). -/
structure ExhaustedFrom (s t : State) : Prop where
  phase : t.phase = .idle
  done : t.done = true
  code : t.code = .exhausted
  lastCause : t.lastCause = .shortRead
  attempt : t.attempt = s.maxatt
  data0 : t.data0 = 0
  data1 : t.data1 = 0
  faillogCause : t.faillogCause = .shortRead
  faillogAttempt : t.faillogAttempt = s.maxatt
  irqStatus : t.irqStatus = s.irqStatus ||| 0b11#2

/-- The last attempt ends the command. -/
theorem Unanswered.exhausted {s b : State} {l : List CycleIn} (h : Unanswered s l b) (hlast : s.attempt = s.maxatt) :
    ExhaustedFrom s (b.closeCycle ((b.report .shortRead b.attempt).finish .exhausted .shortRead 0 0)) := by
  have hbits : b.irqStatus ||| attfailIrq ||| doneIrq = s.irqStatus ||| 0b11#2 := by
    rw [BitVec.or_assoc, h.irqStatus]
    rfl
  constructor <;> simp [h.attempt, hlast, hbits]

/-- The state the next attempt begins in, after the EVAL cycle `b` of one before the last (43_retry.md R259). -/
def State.nextAttempt (b : State) : State := b.closeCycle (b.report .shortRead b.attempt).retry

@[simp] theorem State.nextAttempt_attempt (b : State) : b.nextAttempt.attempt = b.attempt + 1 := by
  simp [State.nextAttempt]

@[simp] theorem State.nextAttempt_maxatt (b : State) : b.nextAttempt.maxatt = b.maxatt := by
  simp [State.nextAttempt]

@[simp] theorem State.nextAttempt_irqStatus (b : State) : b.nextAttempt.irqStatus = b.irqStatus ||| attfailIrq := by
  simp [State.nextAttempt]

/-- An attempt before the last one is followed by the next one (43_retry.md R253, R258). -/
theorem Unanswered.next {s b : State} {l : List CycleIn} (h : Unanswered s l b) (ha : s.AtAttempt) :
    b.nextAttempt.AtAttempt := by
  obtain ⟨hreq, -, -, -, hrx, -⟩ := h
  simp only [State.request, Prod.mk.injEq] at hreq
  obtain ⟨hpar, hop, -, -, htxbuf, htxlen, -, hvar, -⟩ := hreq
  obtain ⟨-, -, hcommand, ⟨htx, -⟩, hpos, hfits, htimeout⟩ := ha
  constructor <;> simp_all [State.nextAttempt, State.fits]

/-- Every attempt takes the same number of cycles. -/
theorem Unanswered.next_attemptCycles {s b : State} {l : List CycleIn} (h : Unanswered s l b) :
    b.nextAttempt.attemptCycles = s.attemptCycles := by
  have hreq := h.request
  simp only [State.request, Prod.mk.injEq] at hreq
  obtain ⟨hpar, -, -, -, -, htxlen, -, hvar, -⟩ := hreq
  simp [State.nextAttempt, State.attemptCycles, hpar, htxlen, hvar]

/-- ATTFAIL_IRQ is set already when the next attempt ends the command. -/
theorem Unanswered.exhausted_of_next {s b t : State} {l : List CycleIn} (h : Unanswered s l b)
    (ht : ExhaustedFrom b.nextAttempt t) : ExhaustedFrom s t :=
  { ht with
    attempt := by rw [ht.attempt, State.nextAttempt_maxatt, h.maxatt]
    faillogAttempt := by rw [ht.faillogAttempt, State.nextAttempt_maxatt, h.maxatt]
    irqStatus := by
      rw [ht.irqStatus, State.nextAttempt_irqStatus, h.irqStatus, BitVec.or_assoc]
      rfl }

/-- With a silent device, `n` attempts after this one exhaust the command. -/
theorem State.AtAttempt.exhausts (n : Nat) : ∀ {s : State}, s.AtAttempt → s.attempt.toNat + n = s.maxatt.toNat →
    s.inputs = List.replicate ((n + 1) * s.attemptCycles) silentCycle →
    ∃ t, BusyRun ((n + 1) * s.attemptCycles) s t ∧ ExhaustedFrom s t := by
  induction n with
  | zero =>
    intro s h hcount hin
    rw [Nat.zero_add, Nat.one_mul] at hin ⊢
    have hlast : s.attempt = s.maxatt := BitVec.eq_of_toNat_eq hcount
    obtain ⟨b, hb, hrun⟩ := h.fails (l := []) (by rw [hin, List.append_nil])
    rw [failAttempt_exhaust (by simp [hb.attempt, hb.maxatt, hlast])] at hrun
    exact ⟨_, hrun, hb.exhausted hlast⟩
  | succ n ih =>
    intro s h hcount hin
    rw [Nat.succ_mul, Nat.add_comm] at hin ⊢
    obtain ⟨b, hb, hrun⟩ := h.fails (hin.trans (List.replicate_add ..))
    rw [failAttempt_retry (by rw [hb.attempt, hb.maxatt]; omega)] at hrun
    have hcycles := hb.next_attemptCycles
    have hnext : b.nextAttempt.attempt.toNat + n = b.nextAttempt.maxatt.toNat := by
      rw [State.nextAttempt_attempt, State.nextAttempt_maxatt, hb.attempt, hb.maxatt]
      bv_omega
    obtain ⟨t, hrest, ht⟩ := ih (hb.next h) hnext (by rw [hcycles]; exact hb.inputs)
    exact ⟨t, hrun.trans (hcycles ▸ hrest), hb.exhausted_of_next ht⟩

/-- Settles O60, by induction on the attempts that are left: each of them but the last leads to the next one, with the
same request and the same bound. -/
theorem silentBusExhausts : Obligations.SilentBusExhausts := by
  intro s op hreq hbuf hcounter hp hc hop hfirst hbound a hin
  have hbusy : s.phase ≠ .idle := by simp [hp]
  obtain ⟨op', hop', -, htxlen, -, hvar, -⟩ := hreq hbusy
  obtain rfl : op' = op := Option.some.inj (hop'.symm.trans hop)
  have hfits : s.fits := ⟨hreq.txlen_le hbusy, hbuf.rx_size ▸ hbuf.rxlen_fits⟩
  have hstart : s.AtAttempt :=
    ⟨hp, hc, ⟨op', hop⟩, hfits, hcounter.length_pos hbusy, hcounter.txlen_fits, hcounter.timeout_pos⟩
  have hlen : s.txlen.toNat = if op' = .asciiRead then 16 else 8 := by rw [htxlen]; split <;> rfl
  have ha : a = s.attemptCycles := by simp only [a, transmitCycles, State.attemptCycles, hvar, hlen]
  obtain ⟨n, hn⟩ := Nat.exists_eq_add_of_le' hbound
  have hcount : s.attempt.toNat + n = s.maxatt.toNat := by rw [hfirst, hn, Nat.add_comm]; rfl
  rw [ha, hn] at hin ⊢
  obtain ⟨t, hrun, ht⟩ := hstart.exhausts n hcount hin
  exact ⟨⟨t, hrun.reaches, ht.phase, ht.done, ht.code, ht.lastCause, ht.attempt, ht.data0, ht.data1, ht.faillogCause,
    ht.faillogAttempt, ht.irqStatus⟩, hrun.running⟩

end Sys2Proof.Machine

/-! ## Commands

Every command is an acceptance under its own opcode. Accepted, it ends at once or starts a transaction; dropped, it sets
OVERRUN (44_commands.md R280, R290). -/

namespace Sys2Proof.Machine

open Sys2Proof.Claims

/-! ### The command rows -/

/-- Each of the sixteen command rows is accepted or dropped under its opcode (44_commands.md R280, R290). -/
theorem exec_of_commandOp {i : Instr} {op : BitVec 4} (h : commandOp i = some op) :
    ∃ body, ∀ s, exec i s = .next (s.accept op body) := by
  cases i with
  | crcInit | crcByte | readTemp | readEmis | writeId | writeEmis | co2Query | co2Status | asciiRead
  | reserved0 | reservedA | reservedB | reservedC | reservedD | reservedE | reservedF =>
    cases h
    exact ⟨_, fun _ => rfl⟩
  | _ => cases h

/-- The reserved rows share one body (44_commands.md R289). -/
theorem exec_of_isReserved {i : Instr} {op : BitVec 4} (hi : isReserved i = true) (h : commandOp i = some op)
    (s : State) : exec i s = .next (s.accept op State.illegal) := by
  cases i with
  | reserved0 | reservedA | reservedB | reservedC | reservedD | reservedE | reservedF => cases h; rfl
  | _ => cases hi

/-- The transaction rows share the checks and the start (44_commands.md R280). -/
theorem exec_of_transactionOf {i : Instr} {op : TransOp} (h : transactionOf i = some op) (s : State) :
    exec i s = .next (s.accept op.code fun t => t.transact op) := by
  cases i with
  | readTemp | readEmis | writeId | writeEmis | co2Query | co2Status | asciiRead => cases h; rfl
  | _ => cases h

/-- Settles O17: whatever the command's body is, it does not run while the sequencer does. -/
theorem commandWhileBusySetsOverrun : Obligations.CommandWhileBusySetsOverrun := by
  intro i op s h hp
  obtain ⟨body, hexec⟩ := exec_of_commandOp h
  rw [hexec, accept_busy hp]
  rfl

/-- Settles O13: the shared body of the reserved rows finishes the accepted command. -/
theorem reservedOpcodeFinishesIllegal : Obligations.ReservedOpcodeFinishesIllegal := by
  intro i op s hi h hp
  rw [exec_of_isReserved hi h, accept_idle hp, ← finish_eq_finishedAtOnce hp]
  rfl

/-! ### The checks of a transaction -/

/-- Only the two writes check their value, so a value within their ranges passes for every command
(41_frame_codec.md R176). -/
theorem rangeFails_eq_false {op : TransOp} {value : Half} (hid : op = .writeId → value.toNat ≤ 0x00FF)
    (hemis : op = .writeEmis → 1 ≤ value.toNat ∧ value.toNat ≤ 99) : rangeFails op value = false := by
  rw [← Bool.not_eq_true]
  cases op with
  | writeId =>
    rw [rangeFails_writeId_iff]
    exact Nat.not_lt.mpr (hid rfl)
  | writeEmis =>
    obtain ⟨hlo, hhi⟩ := hemis rfl
    rw [rangeFails_writeEmis_iff]
    omega
  | _ => simp [rangeFails]

/-- Of the seven commands ASCII_READ alone speaks at the ASCII variant's baud rate (42_transceiver.md R204). -/
theorem variantOf_eq_ascii_iff {op : TransOp} : variantOf op = .ascii ↔ op = .asciiRead := by
  cases op <;> decide

/-- A started transaction is in the state the statement names (44_commands.md R280). -/
theorem startTransaction_eq_started (s : State) (op : TransOp) :
    (s.acceptCommon op.code).startTransaction op = started s op (requestFrame s.par op s.regAddr s.regValue) := by
  simp only [State.startTransaction, variantOf_eq_ascii_iff]
  rfl

/-- With the value in range, MAXATT decides between BAD_CONFIG and the first attempt (44_commands.md R280). -/
theorem accept_transact_of_inRange {s : State} {op : TransOp} (hp : s.phase = .idle)
    (h : rangeFails op s.regValue = false) :
    s.accept op.code (fun t => t.transact op)
      = if s.regMaxatt = 0 then finishedAtOnce s op.code .badConfig 0
        else started s op (requestFrame s.par op s.regAddr s.regValue) := by
  have hrange : ¬ rangeFails op (s.acceptCommon op.code).value = true := Bool.eq_false_iff.mp h
  rw [accept_idle hp, State.transact, if_neg hrange, ← startTransaction_eq_started, ← finish_eq_finishedAtOnce hp]
  rfl

/-- Settles O16: the range check passes and the MAXATT check fails. -/
theorem zeroMaxattRefused : Obligations.ZeroMaxattRefused := by
  intro i op s h hp hid hemis hzero
  rw [exec_of_transactionOf h, accept_transact_of_inRange hp (rangeFails_eq_false hid hemis), if_pos hzero]

/-- Settles O14: both checks pass, so the first attempt starts. -/
theorem transactionAccepted : Obligations.TransactionAccepted := by
  intro i op s h hp hid hemis hmaxatt
  rw [exec_of_transactionOf h, accept_transact_of_inRange hp (rangeFails_eq_false hid hemis), if_neg hmaxatt]

end Sys2Proof.Machine

/-! ## The step over the decoded instruction -/

namespace Sys2Proof.Machine

/-- A CMD write runs the command its word decodes to (44_commands.md R280). -/
theorem hostPart_of_decode {s : State} {i : Instr} (hcmd : s.commandWrite = true)
    (hd : decode s.par .command s.commandBytes = .ok i) : s.hostPart = exec i s := by
  rw [State.commandBytes, decode_wordBytes] at hd
  cases hd
  exact hostPart_of_commandWrite hcmd

/-- In the transmit part the request in TXBUF is fetched. -/
theorem fetchFrame_of_transmitting {s : State} {op : TransOp} {i : Instr} (hop : TransOp.ofCode s.op = some op)
    (ht : s.phase.transmitting = true) (hd : decode s.par (.request op) s.requestBytes = .ok i) :
    s.fetchFrame = some i := by
  simp [State.fetchFrame, State.frameContext, hop, ht, hd, Except.toOption]

/-- In EVAL without a recorded cause the response in RXBUF is fetched (43_retry.md R259). -/
theorem fetchFrame_of_eval {s : State} {op : TransOp} {i : Instr} (hop : TransOp.ofCode s.op = some op)
    (hp : s.phase = .eval) (hc : s.cause = .ok) (hd : decode s.par (.response op) s.responseBytes = .ok i) :
    s.fetchFrame = some i := by
  simp [State.fetchFrame, State.frameContext, hop, hp, hc, hd, Phase.transmitting, Except.toOption]

/-- While a command runs, the whole cycle is the fetched frame's meaning on the state the host's part left. -/
theorem step_of_fetchFrame {s t : State} {i : Instr} (hr : s.now.rst = false) (hw : s.now.host.whole = true)
    (ht : s.hostPart = .next t) (hp : s.phase ≠ .idle) (hf : s.fetchFrame = some i) :
    step s = andThen (exec i t) fun u => .next (s.closeCycle u) := by
  have hpart : s.sequencerPart t = exec i t := by simp [State.sequencerPart, hp, hf]
  obtain ⟨u, hu⟩ := exec_next i t
  rw [step_of_hostPart hr hw ht (hpart.trans hu), hu]
  rfl

theorem ne_idle_of_transmitting {p : Phase} (h : p.transmitting = true) : p ≠ .idle := by
  rintro rfl
  cases h

/-- Settles O32: the host's part runs the decoded command, which is the whole of an idle cycle, and the sequencer's part
runs the fetched frame. -/
theorem stepRunsDecodedInstruction : Obligations.StepRunsDecodedInstruction := by
  intro s i hr hw
  refine ⟨fun hcmd hd => ⟨hostPart_of_decode hcmd hd, fun hp => ?_⟩, fun t op ht hop => ⟨fun htx hd => ?_,
    fun hp hc hd => ?_⟩⟩
  · obtain ⟨t, ht⟩ := exec_next i s
    rw [step_idle hp hr hw ((hostPart_of_decode hcmd hd).trans ht), ht]
    rfl
  · exact step_of_fetchFrame hr hw ht (ne_idle_of_transmitting htx) (fetchFrame_of_transmitting hop htx hd)
  · exact step_of_fetchFrame hr hw ht (by simp [hp]) (fetchFrame_of_eval hop hp hc hd)

end Sys2Proof.Machine

/-! ## The published results

While a command runs nothing is published, and what a command publishes at its end is legal (60_exceptions.md R321,
20_memory.md R74). -/

namespace Sys2Proof.Machine

/-- What a command publishes (10_state.md R26 to R28). -/
def State.results (s : State) := (s.done, s.code, s.lastCause, s.data0, s.data1)

/-! ### Keeping and publishing -/

/-- The invariant looks at the results, the failure log, the exchange's cause and whether a command runs. -/
theorem State.ResultInv.of_results_eq {s t : State} (h : s.ResultInv) (hres : t.results = s.results)
    (hlog : t.faillogCause = s.faillogCause) (hcause : t.cause ∈ [Code.ok, .transportError, .shortRead])
    (hp : t.phase ≠ .idle → s.phase ≠ .idle) : t.ResultInv := by
  simp only [State.results, Prod.mk.injEq] at hres
  obtain ⟨hdone, hcode, hlast, hdata0, hdata1⟩ := hres
  constructor
  · exact hcode ▸ h.code_final
  · exact hcause
  · exact hlog ▸ h.log_retried
  · exact hcode ▸ hlast ▸ h.last_of_exhausted
  · exact hcode ▸ hlast ▸ h.last_otherwise
  · exact hcode ▸ hdata0 ▸ h.data0_of_result
  · exact hcode ▸ hdata1 ▸ h.data1_of_ok
  · exact fun ht => hdone ▸ hcode ▸ hdata0 ▸ hdata1 ▸ h.running (hp ht)

/-- Nothing published is legal in every phase (20_memory.md R74). -/
theorem State.ResultInv.of_no_result {t : State} (hres : t.results = (false, .ok, .ok, 0, 0))
    (hlog : t.faillogCause = .ok) (hcause : t.cause ∈ [Code.ok, .transportError, .shortRead]) : t.ResultInv := by
  simp only [State.results, Prod.mk.injEq] at hres
  obtain ⟨hdone, hcode, hlast, hdata0, hdata1⟩ := hres
  constructor <;> simp [hdone, hcode, hlast, hdata0, hdata1, hlog, finalCodes]
  simpa using hcause

/-- A command ends with a final code, a last cause exactly with EXHAUSTED, and data only where the code allows it
(60_exceptions.md R321, R325). -/
theorem State.ResultInv.finish {s : State} (h : s.ResultInv) {code last : Code} {d0 d1 : Word}
    (hcode : code ∈ finalCodes) (hlast : if code = .exhausted then last ∈ retriedCauses else last = .ok)
    (hd0 : code ≠ .ok → code ≠ .valueRejected → d0 = 0) (hd1 : code ≠ .ok → d1 = 0) :
    (s.finish code last d0 d1).ResultInv where
  code_final := hcode
  cause_of_exchange := h.cause_of_exchange
  log_retried := h.log_retried
  last_of_exhausted he := (if_pos he).mp hlast
  last_otherwise he := (if_neg he).mp hlast
  data0_of_result := hd0
  data1_of_ok := hd1
  running := absurd rfl

theorem State.ResultInv.finish_ok {s : State} (h : s.ResultInv) (d0 d1 : Word) : (s.finish .ok .ok d0 d1).ResultInv :=
  h.finish (by decide) rfl (absurd rfl) (absurd rfl)

/-! ### The rows of the phase table -/

/-- The transmit part publishes nothing, and records at most TRANSPORT_ERROR (42_transceiver.md R218). -/
theorem State.ResultInv.transmitCycle {s : State} (h : s.ResultInv) (hp : s.phase ≠ .idle) (i : CycleIn) :
    (s.transmitCycle i).ResultInv := by
  have keep {t : State} (hres : t.results = s.results) (hlog : t.faillogCause = s.faillogCause)
      (hcause : t.cause = s.cause) : t.ResultInv :=
    h.of_results_eq hres hlog (hcause ▸ h.cause_of_exchange) fun _ => hp
  rcases transmitCycle_cases s i with
    e | ⟨-, e⟩ | ⟨-, -, e⟩ | ⟨-, -, e⟩ | ⟨-, -, -, e⟩ | ⟨-, -, -, e⟩ | ⟨-, -, e⟩ | ⟨-, -, -, -, e⟩ | ⟨-, -, -, -, e⟩
      | ⟨-, -, -, e⟩ | ⟨-, -, e⟩ <;> rw [e]
  · exact keep rfl rfl rfl
  · exact keep rfl rfl rfl
  · exact keep rfl rfl rfl
  · exact h.of_results_eq rfl rfl (by simp) fun _ => hp
  · exact keep rfl rfl rfl
  · exact keep rfl rfl rfl
  · exact keep rfl rfl rfl
  · exact keep rfl rfl rfl
  · exact keep rfl rfl rfl
  · exact keep rfl rfl rfl
  · exact h.of_results_eq rfl rfl (by simp) fun _ => hp

/-- RECEIVE publishes nothing, and records at most TRANSPORT_ERROR or SHORT_READ (42_transceiver.md R216, R217). -/
theorem State.ResultInv.receiveCycle {s : State} (h : s.ResultInv) (hp : s.phase ≠ .idle) (i : CycleIn) :
    (s.receiveCycle i).ResultInv := by
  rcases receiveCycle_cases s i with ⟨-, e⟩ | ⟨u, hu, e⟩
  · rw [e]
    exact h.of_results_eq rfl rfl (by simp) fun _ => hp
  have hstore : u.ResultInv ∧ u.phase ≠ .idle := by
    rcases hu with ⟨-, rfl⟩ | ⟨-, rfl | rfl⟩ <;> exact ⟨h.of_results_eq rfl rfl h.cause_of_exchange id, hp⟩
  obtain ⟨hinv, hbusy⟩ := hstore
  rcases e with ⟨-, e⟩ | ⟨-, e⟩ | ⟨-, e⟩ <;> rw [e]
  · exact hinv.of_results_eq rfl rfl hinv.cause_of_exchange fun _ => hbusy
  · exact hinv.of_results_eq rfl rfl (by simp) fun _ => hbusy
  · exact hinv.of_results_eq rfl rfl hinv.cause_of_exchange fun _ => hbusy

/-- A failed attempt logs its cause, and the command goes on without a result or ends in EXHAUSTED with that cause
(43_retry.md R254, R255, R259). -/
theorem State.ResultInv.failAttempt {s : State} (h : s.ResultInv) (hp : s.phase ≠ .idle) {c : Code}
    (hc : c ∈ retriedCauses) : (s.failAttempt c).ResultInv := by
  have hreport : (s.report c s.attempt).ResultInv := { h with log_retried := .inr hc }
  rcases failAttempt_cases s c with ⟨-, e⟩ | ⟨-, e⟩ <;> rw [e]
  · exact hreport.of_results_eq rfl rfl h.cause_of_exchange fun _ => hp
  · exact hreport.finish (by decide) ((if_pos rfl).mpr hc) (fun _ _ => rfl) fun _ => rfl

/-- Validation rejects a response with a cause that is retried (43_retry.md R252). -/
theorem judge_reject_retried {p : Params} {op : TransOp} {rx : List Byte} {sent : Byte} {c : Code}
    (h : judge p op rx sent = .reject c) : c ∈ retriedCauses := by
  rcases judge_cases p op rx sent with ⟨_, _, e⟩ | ⟨_, e⟩ | e | e <;> rw [e] at h <;> cases h <;> decide

/-- What the exchange records is nothing or a cause that is retried (43_retry.md R252). -/
theorem State.ResultInv.cause_retried {s : State} (h : s.ResultInv) (hc : s.cause ≠ .ok) : s.cause ∈ retriedCauses := by
  have hrecorded : s.cause = .transportError ∨ s.cause = .shortRead := by simpa [hc] using h.cause_of_exchange
  rcases hrecorded with e | e <;> rw [e] <;> decide

/-- EVAL over a judged response publishes a legal result, or fails the attempt with a cause that is retried
(43_retry.md R259). -/
theorem State.ResultInv.evalCycle_judge {s : State} (h : s.ResultInv) (hp : s.phase ≠ .idle) (p : Params) (op : TransOp)
    (rx : List Byte) (sent : Byte) : (s.evalCycle (judge p op rx sent)).ResultInv := by
  rcases evalCycle_cases s (judge p op rx sent) with ⟨code, a, b, -, hv, e⟩ | ⟨c, -, hv, e⟩ | ⟨hc, e⟩ <;> rw [e]
  · rcases judge_cases p op rx sent with ⟨_, _, e⟩ | ⟨_, e⟩ | e | e <;> rw [e] at hv <;> cases hv
    · exact h.finish_ok a b
    · exact h.finish (by decide) rfl (fun _ => absurd rfl) fun _ => rfl
  · exact h.failAttempt hp (judge_reject_retried hv)
  · exact h.failAttempt hp (h.cause_retried hc)

/-! ### The parts of a cycle -/

/-- In EVAL the sequencer's part judges a response to the command; the bytes that RXBUF holds may have been put back
into it first (log entry 6). Without a command there, it does nothing. -/
theorem sequencerPart_judges {s u v : State} (hp : s.phase = .eval) (hu : s.hostPart = .next u)
    (hv : s.sequencerPart u = .next v) :
    v = u ∨ ∃ w op rx sent, (w = u ∨ w = u.loadResponse rx) ∧ v = w.evalCycle (judge u.par op rx sent) := by
  obtain ⟨hphase, hop, hpar, -⟩ := fields_of_withHostSide (hostPart_busy_withHostSide (by simp [hp]) hu).1
  have heval : u.phase = .eval := hphase.trans hp
  rcases sequencerPart_cases hop hpar hv with
    ⟨-, e⟩ | ⟨-, rfl⟩ | ⟨op, i, -, ht, -, -⟩ | ⟨op, i, -, -, -, -, rfl⟩
  · exact .inl e
  · rw [sequencerCycle_of_eval heval]
    cases hcode : TransOp.ofCode u.op with
    | none => exact .inl (evalBuffer_of_none hcode)
    | some op => exact .inr ⟨u, op, _, _, .inl rfl, evalBuffer_of_some hcode⟩
  · simp [hp, Phase.transmitting] at ht
  · exact .inr ⟨_, op, _, _, .inr rfl, judgeFrame_of_eval heval op _⟩

/-- A row of the exchange publishes nothing. -/
theorem State.ResultInv.sequenced {u v : State} (h : u.ResultInv) (hp : u.phase ≠ .eval) (hv : Sequenced u v) :
    v.ResultInv := by
  have hbusy := hv.busy
  cases hv with
  | transmit _ hw =>
    rcases hw with rfl | rfl
    · exact h.transmitCycle hbusy _
    · have hload : (u.loadRequest u.requestBytes).ResultInv := h.of_results_eq rfl rfl h.cause_of_exchange id
      exact hload.transmitCycle hbusy _
  | receive => exact h.receiveCycle hbusy _
  | judge _ _ he => exact absurd he hp
  | noCommand he => exact absurd he hp

/-- The sequencer's part keeps the results legal: it publishes in EVAL alone, where it judges a response. -/
theorem State.ResultInv.sequencerPart {s u v : State} (h : u.ResultInv) (hu : s.hostPart = .next u)
    (hv : s.sequencerPart u = .next v) : v.ResultInv := by
  by_cases hidle : s.phase = .idle
  · rw [sequencerPart_idle hidle] at hv
    cases hv
    exact h
  obtain ⟨hphase, -⟩ := fields_of_withHostSide (hostPart_busy_withHostSide hidle hu).1
  by_cases heval : s.phase = .eval
  · rcases sequencerPart_judges heval hu hv with rfl | ⟨w, op, rx, sent, rfl | rfl, rfl⟩
    · exact h
    · exact h.evalCycle_judge (hphase ▸ hidle) ..
    · have hload : (u.loadResponse rx).ResultInv := h.of_results_eq rfl rfl h.cause_of_exchange id
      exact hload.evalCycle_judge (hphase ▸ hidle) ..
  · exact h.sequenced (hphase ▸ heval) (sequenced_of_sequencerPart hidle hu hv)

/-- An accepted command begins without a result; one that finishes at once publishes a legal one (44_commands.md R280,
R281). -/
theorem State.ResultInv.accepted {s t : State} (h : s.ResultInv) {o : BitVec 4} (ha : Accepted (s.acceptCommon o) t) :
    t.ResultInv := by
  have hempty (c : Half) : ({ (s.acceptCommon o).noRequest with crc := c } : State).ResultInv :=
    .of_no_result rfl rfl h.cause_of_exchange
  cases ha with
  | crcInit => exact (hempty _).finish_ok ..
  | crcByte => exact (hempty _).finish_ok ..
  | refused c hc =>
    have hcode : c ∈ finalCodes ∧ c ≠ .exhausted := by
      simp only [List.mem_cons, List.not_mem_nil, or_false] at hc
      rcases hc with rfl | rfl | rfl <;> decide
    obtain ⟨hfinal, hother⟩ := hcode
    exact (hempty _).finish hfinal ((if_neg hother).mpr rfl) (fun _ _ => rfl) fun _ => rfl
  | started op hop hr hm => exact .of_no_result rfl rfl (.head _)

/-- The host's part leaves the results, or accepts a command. -/
theorem State.ResultInv.hostPart {s u : State} (h : s.ResultInv) (hu : s.hostPart = .next u) : u.ResultInv := by
  rcases hostPart_side_or_accepted hu with e | ⟨-, o, ha⟩
  · rw [e]
    exact h.of_results_eq rfl rfl h.cause_of_exchange id
  · exact h.accepted ha

/-- Settles O43: reset and acceptance publish nothing illegal, the exchange publishes nothing, and EVAL publishes what a
judged response or the last failed attempt gives. -/
theorem stepKeepsResults : Obligations.StepKeepsResults := by
  intro s t h hst
  have close {v : State} (hv : v.ResultInv) : (s.closeCycle v).ResultInv :=
    hv.of_results_eq rfl rfl hv.cause_of_exchange id
  rcases step_cases s with ⟨-, e⟩ | ⟨-, -, e⟩ | ⟨-, -, u, v, hu, hv, e⟩ <;> rw [e] at hst <;> cases hst
  · exact close (.of_no_result rfl rfl (.head _))
  · exact close ((h.hostPart hu).sequencerPart hu hv)

end Sys2Proof.Machine

/-! ## Failed attempts and interrupts in EVAL -/

namespace Sys2Proof.Machine

open Sys2Proof.Claims

/-! ### The interrupt bits -/

theorem ackBits_of_write {s : State} (hen : s.now.host.en = true) (hwe : s.now.host.we = true)
    (hreg : s.hostReg = .irqStatus) : ackBits s = s.now.host.wdata.setWidth 2 := if_pos ⟨hen, hwe, hreg⟩

theorem ackBits_of_hostReg_ne {s : State} (hreg : s.hostReg ≠ .irqStatus) : ackBits s = 0#2 :=
  if_neg fun ⟨_, _, h⟩ => hreg h

theorem ackBits_of_no_write {s : State} (h : (s.now.host.en && s.now.host.we) = false) : ackBits s = 0#2 :=
  if_neg fun ⟨hen, hwe, _⟩ => by simp [hen, hwe] at h

/-- A register write changes IRQ_STATUS only where it names it (20_memory.md R64). -/
theorem writeReg_irqStatus_of_ne (s : State) {r : Reg} (hr : r ≠ .irqStatus) (w : Word) :
    (s.writeReg r w).irqStatus = s.irqStatus := by
  rcases writeReg_cases s r w with e | ⟨-, e⟩ | ⟨-, e⟩ | ⟨-, e⟩ | ⟨-, e⟩ | ⟨hirq, -⟩ | ⟨-, e⟩
  case inr.inr.inr.inr.inr.inl => exact absurd hirq hr
  all_goals rw [e]

/-- Without a CMD write the host's part clears the bits the host writes 1 to (60_exceptions.md R326). -/
theorem hostCycle_irqStatus (s : State) : s.hostCycle.irqStatus = s.irqStatus &&& ~~~ackBits s := by
  unfold State.hostCycle
  split
  case isTrue hwrite =>
    obtain ⟨hen, hwe⟩ := Bool.and_eq_true_iff.mp hwrite
    by_cases hreg : s.hostReg = .irqStatus
    · rw [ackBits_of_write hen hwe hreg, hreg]
      rfl
    · rw [ackBits_of_hostReg_ne hreg, writeReg_irqStatus_of_ne s hreg, BitVec.not_zero, BitVec.and_allOnes]
  case isFalse hwrite =>
    rw [ackBits_of_no_write (by simpa using hwrite), BitVec.not_zero, BitVec.and_allOnes]

/-- While a command runs the host's part clears the bits the host writes 1 to (60_exceptions.md R326). -/
theorem hostPart_busy_irqStatus {s u : State} (hp : s.phase ≠ .idle) (hu : s.hostPart = .next u) :
    u.irqStatus = s.irqStatus &&& ~~~ackBits s := by
  by_cases hcmd : s.commandWrite = true
  · obtain ⟨-, -, hreg⟩ := s.commandWrite_iff.mp hcmd
    obtain ⟨t, ht, ⟨-, rfl⟩ | ⟨hidle, -⟩⟩ := exec_decodeCommand s.now.host.wdata s
    · rw [hostPart_of_commandWrite hcmd, ht] at hu
      cases hu
      rw [ackBits_of_hostReg_ne (by simp [hreg]), BitVec.not_zero, BitVec.and_allOnes]
      rfl
    · exact absurd hidle hp
  · rw [hostPart_of_not_commandWrite (by simpa using hcmd)] at hu
    cases hu
    exact hostCycle_irqStatus s

/-- A failed attempt sets ATTFAIL_IRQ, and DONE_IRQ if it was the last one (43_retry.md R254, R255). -/
theorem failAttempt_irqStatus (s : State) (c : Code) : (s.failAttempt c).irqStatus =
    s.irqStatus ||| 0b10#2 ||| (if (s.failAttempt c).phase = .idle then 0b01#2 else 0) := by
  rcases failAttempt_cases s c with ⟨-, e⟩ | ⟨-, e⟩ <;> rw [e] <;> simp [attfailIrq, doneIrq]

/-! ### Which attempts fail -/

/-- A recorded cause or a failed validation fails the attempt (43_retry.md R252, R259). -/
theorem evalBuffer_of_attemptFails {s : State} {op : TransOp} (hop : TransOp.ofCode s.op = some op)
    (h : attemptFails s op = true) : ∃ c, s.evalBuffer = s.failAttempt c := by
  rw [evalBuffer_of_some hop]
  by_cases hc : s.cause = .ok
  · have hinvalid : validate s.par op s.responseBytes ≠ .ok := by simpa [attemptFails, hc] using h
    have hreject : judge s.par op s.responseBytes (s.txByte 5) = .reject (validate s.par op s.responseBytes) := by
      unfold judge
      split
      · contradiction
      · rfl
    exact ⟨_, by rw [evalCycle_conclude hc, hreject, State.conclude]⟩
  · exact ⟨_, evalCycle_fail hc _⟩

/-- Any other attempt finishes the command (43_retry.md R256, R259). -/
theorem evalBuffer_of_not_attemptFails {s : State} {op : TransOp} (hop : TransOp.ofCode s.op = some op)
    (h : attemptFails s op = false) : ∃ code d0 d1, s.evalBuffer = s.finish code .ok d0 d1 := by
  have hpass : s.cause = .ok ∧ validate s.par op s.responseBytes = .ok := by simpa [attemptFails] using h
  obtain ⟨hc, hvalid⟩ := hpass
  rw [evalBuffer_of_some hop, evalCycle_conclude hc, judge_of_valid hvalid]
  rcases decodeFields_cases s.par op s.responseBytes (s.txByte 5) with ⟨a, b, e⟩ | ⟨a, e⟩ <;> rw [e] <;>
    exact ⟨_, _, _, rfl⟩

/-- EVAL sets ATTFAIL_IRQ exactly if the attempt fails, and DONE_IRQ exactly if the command finishes (43_retry.md
R254, 60_exceptions.md R325). -/
theorem evalBuffer_irqStatus {s : State} {op : TransOp} (hop : TransOp.ofCode s.op = some op) :
    s.evalBuffer.irqStatus = s.irqStatus ||| (if attemptFails s op then 0b10#2 else 0)
      ||| (if s.evalBuffer.phase = .idle then 0b01#2 else 0) := by
  cases hfail : attemptFails s op
  · obtain ⟨code, d0, d1, e⟩ := evalBuffer_of_not_attemptFails hop hfail
    simp [e, doneIrq]
  · obtain ⟨c, e⟩ := evalBuffer_of_attemptFails hop hfail
    rw [e]
    exact failAttempt_irqStatus s c

/-- Settles O55: the host's part clears bits, and EVAL, which runs on the state it leaves, sets them. -/
theorem interruptSetWins : Obligations.InterruptSetWins := by
  intro s t op hbuf hp hop hr hst
  rcases step_cases s with ⟨hr', -⟩ | ⟨-, -, e⟩ | ⟨-, -, u, v, hu, hv, e⟩
  · simp [hr] at hr'
  · simp [e] at hst
  rw [e] at hst
  cases hst
  have hbusy : s.phase ≠ .idle := by simp [hp]
  have hrx : s.rxlen.toNat ≤ s.rxbuf.length := hbuf.rx_size ▸ hbuf.rxlen_fits
  rw [sequencerPart_eval hp hrx hu] at hv
  cases hv
  obtain ⟨hview, hpar⟩ := hostPart_busy_view hbusy hu
  have hrsp := responseBytes_of_sequencerView_eq hview
  simp only [sequencerView, Prod.mk.injEq] at hview
  have hfails : attemptFails u op = attemptFails s op := by simp [attemptFails, hview, hpar, hrsp]
  rw [← hostPart_busy_irqStatus hbusy hu, ← hfails]
  exact evalBuffer_irqStatus (by simpa [hview] using hop)

/-! ### A recorded cause -/

theorem failAttempt_eq_failed (s : State) (c : Code) : s.failAttempt c = failed s c := conclude_reject s c

/-- With a recorded cause no frame is fetched, so in EVAL the phase table's cycle runs, whatever RXBUF holds. -/
theorem sequencerPart_of_cause {s u : State} (hp : s.phase = .eval) (hc : s.cause ≠ .ok) (hu : s.hostPart = .next u) :
    s.sequencerPart u = .next u.evalBuffer := by
  obtain ⟨hphase, hop, hpar, -⟩ := fields_of_withHostSide (hostPart_busy_withHostSide (by simp [hp]) hu).1
  obtain ⟨v, hv⟩ := sequencerPart_next s u
  rw [hv]
  rcases sequencerPart_cases hop hpar hv with ⟨hidle, -⟩ | ⟨-, rfl⟩ | ⟨op, i, -, ht, -, -⟩ | ⟨op, i, -, -, hok, -, -⟩
  · simp [hp] at hidle
  · rw [sequencerCycle_of_eval (hphase.trans hp)]
  · simp [hp, Phase.transmitting] at ht
  · exact absurd hok hc

/-- Settles O30: neither the step nor `exec` gets to the verdict on RXBUF when a cause is recorded. -/
theorem exchangeCauseBeatsValidation : Obligations.ExchangeCauseBeatsValidation := by
  refine ⟨fun s u op hp hop hc hr hw hu => ?_, fun i s hi hp hc => ?_⟩
  · obtain ⟨hview, -⟩ := hostPart_busy_view (by simp [hp]) hu
    simp only [sequencerView, Prod.mk.injEq] at hview
    have hcause : u.cause = s.cause := by simp [hview]
    rw [step_of_hostPart hr hw hu (sequencerPart_of_cause hp hc hu), evalBuffer_of_some (by simpa [hview] using hop),
      evalCycle_fail (hcause ▸ hc), failAttempt_eq_failed, hcause]
  · obtain ⟨op, hexec⟩ := exec_of_isResponse hi s
    rw [hexec, judgeFrame_of_eval hp, evalCycle_fail (s := s.loadResponse (encode s.par i)) hc, failAttempt_eq_failed]
    rfl

end Sys2Proof.Machine

/-! ## Where the step stops -/

namespace Sys2Proof.Machine

/-- An access narrower than a word is not whole (20_memory.md R65). -/
theorem whole_eq_false {h : HostAccess} (hen : h.en = true) (hnarrow : h.width ≠ .word) : h.whole = false := by
  simp [HostAccess.whole, hen, hnarrow]

/-- Settles O34: of the three things a step can do, only one is a refusal, and a narrow access without reset is when it
happens. -/
theorem stepStopsOnNarrowAccessAlone : Obligations.StepStopsOnNarrowAccessAlone := by
  intro s
  refine ⟨fun h => ?_, fun hr hen hnarrow => ?_⟩ <;>
    rcases step_cases s with ⟨hrst, e⟩ | ⟨hrst, hwhole, e⟩ | ⟨-, hwhole, u, v, -, -, e⟩
  · exact ⟨_, e⟩
  · simp [hrst, hwhole] at h
  · exact ⟨_, e⟩
  · simp [hr] at hrst
  · exact e
  · simp [whole_eq_false hen hnarrow] at hwhole

end Sys2Proof.Machine

/-! ## Reset -/

namespace Sys2Proof.Machine

/-! ### The reset edge -/

@[simp] theorem State.afterReset_txbuf_length (p : Params) (n : Nat) (is : List CycleIn) (c : Nat) (o : Outputs) :
    (State.afterReset p n is c o).txbuf.length = 16 := by simp [State.afterReset]

@[simp] theorem State.afterReset_rxbuf_length (p : Params) (n : Nat) (is : List CycleIn) (c : Nat) (o : Outputs) :
    (State.afterReset p n is c o).rxbuf.length = p.rxbufBytes := by simp [State.afterReset]

/-- In a cycle with `rst = 1` neither the host's part nor the sequencer's part runs (70_reset_and_hazards.md R360). -/
theorem step_of_rst {s : State} (h : s.now.rst = true) : step s = .next (s.closeCycle s.resetEdge) := by
  rcases step_cases s with ⟨-, e⟩ | ⟨hr, -, -⟩ | ⟨hr, -, -⟩
  · exact e
  · simp [h] at hr
  · simp [h] at hr

/-- Settles O35: the step is the reset edge, which keeps nothing but the model's own fields. -/
theorem resetEdge : Obligations.ResetEdge := by
  intro s h
  refine ⟨_, step_of_rst h, ?_⟩
  simp [State.resetEdge, State.afterReset]

/-! ### What a host reads -/

/-- Settles O36: below the buffers the map names a register with its reset value, and the other offsets lie outside
both buffers, RXBUF having its 64 bytes (00_scope.md R8, 10_state.md R39). -/
theorem resetRegisterReads : Obligations.ResetRegisterReads := by
  have hsize : State.reset.par.rxbufBytes = 64 := rfl
  refine ⟨rfl, rfl, rfl, rfl, rfl, rfl, rfl, rfl, rfl, rfl, rfl, rfl, rfl, rfl, rfl, rfl, fun k hlo hhi => ?_,
    fun k hlo hhi => ?_⟩
  all_goals
    have hk : (BitVec.ofNat 6 k).toNat = k := Nat.mod_eq_of_lt (by omega)
    exact State.reset.view_of_outside (by omega) (by omega) (by omega)

/-! ### The invariants -/

/-- The bounds 00_scope.md R8 sets on the timeout and on the size of RXBUF. -/
theorem bounds_of_wf {p : Params} (h : p.wf = true) :
    1 ≤ p.rxTimeout ∧ 16 ≤ p.rxbufBytes ∧ p.rxbufBytes ≤ 128 := by
  simp only [Params.wf, Bool.and_eq_true, decide_eq_true_eq] at h
  obtain ⟨⟨⟨⟨-, htimeout⟩, -⟩, hmin⟩, hmax⟩ := h
  exact ⟨htimeout, hmin, hmax⟩

/-- The sizes are the only part of the buffers' invariant that a reset takes from the parameters. -/
theorem State.BufferInv.afterReset {p : Params} (hsize : 16 ≤ p.rxbufBytes ∧ p.rxbufBytes ≤ 128) (n : Nat)
    (is : List CycleIn) (c : Nat) (o : Outputs) : (State.afterReset p n is c o).BufferInv :=
  .of_no_byte hsize (State.afterReset_txbuf_length ..) (State.afterReset_rxbuf_length ..) (Nat.zero_le _)
    (Nat.zero_le _) rfl nofun

/-- A timeout of at least one cycle is all the counter's invariant asks of the parameters. -/
theorem State.CounterInv.afterReset {p : Params} (htimeout : 1 ≤ p.rxTimeout) (n : Nat) (is : List CycleIn) (c : Nat)
    (o : Outputs) : (State.afterReset p n is c o).CounterInv :=
  .of_no_index (State.afterReset_txbuf_length ..) (Nat.zero_le _) htimeout (absurd rfl) nofun (Nat.zero_le _)
    (by simp [State.afterReset])

/-- Settles O48: the block is idle in receive mode with nothing published and no attempt made, and the parameters keep
the bounds of 00_scope.md R8. -/
theorem resetMeetsInvariants : Obligations.ResetMeetsInvariants := by
  obtain ⟨htimeout, hsize⟩ := bounds_of_wf config_params_wf
  exact ⟨.of_receiveMode rfl rfl rfl, .of_no_result rfl rfl (.head _), .of_none rfl rfl, .of_idle rfl,
    .afterReset hsize .., .afterReset htimeout ..⟩

end Sys2Proof.Machine
